-- ==== Sys2Proof/Word.lean ====
section
/-! DEFINITION. Words and widths: the bytes and 32-bit words of the machine (00_scope.md R8, R10) and
the three operand widths N of an instruction unit (10_state.md R34). -/

namespace Sys2Proof

/-- One byte, the unit of memory (20_memory.md R70). -/
abbrev Byte := BitVec 8

/-- A 32-bit word: a general register, EIP, a linear address (00_scope.md R8). -/
abbrev Word := BitVec 32

/-- The operand widths N in {8, 16, 32} of the register views and of data accesses (10_state.md R34). -/
inductive Size where
  | s8
  | s16
  | s32
  deriving DecidableEq, Repr

/-- The width N in bits. -/
def Size.bits : Size → Nat
  | .s8 => 8
  | .s16 => 16
  | .s32 => 32

/-- The width in bytes, n = N/8. -/
def Size.bytes : Size → Nat
  | .s8 => 1
  | .s16 => 2
  | .s32 => 4

/-- The operand sizes and address sizes OS, AS in {16, 32} (10_state.md R49, 30_encoding.md R106). -/
inductive OpSize where
  | w16
  | w32
  deriving DecidableEq, Repr

/-- OS as an operand width. -/
def OpSize.size : OpSize → Size
  | .w16 => .s16
  | .w32 => .s32

/-- The other of {16, 32} (30_encoding.md R106). -/
def OpSize.other : OpSize → OpSize
  | .w16 => .w32
  | .w32 => .w16

@[simp] theorem Size.bits_s8 : Size.s8.bits = 8 := rfl
@[simp] theorem Size.bits_s16 : Size.s16.bits = 16 := rfl
@[simp] theorem Size.bits_s32 : Size.s32.bits = 32 := rfl
@[simp] theorem Size.bytes_s8 : Size.s8.bytes = 1 := rfl
@[simp] theorem Size.bytes_s16 : Size.s16.bytes = 2 := rfl
@[simp] theorem Size.bytes_s32 : Size.s32.bytes = 4 := rfl
@[simp] theorem OpSize.size_w16 : OpSize.w16.size = .s16 := rfl
@[simp] theorem OpSize.size_w32 : OpSize.w32.size = .s32 := rfl

end Sys2Proof
end

