-- ==== Sys2Proof/Syntax.lean ====
section
/-! DEFINITION. Syntax: what one decoded instruction is. `Instr` has one constructor per row of
spec/opcode_table.json. A constructor holds the prefixes of the occurrence, the ModRM/SIB form as it was
encoded and the immediate bytes as they were encoded, so that no bit of an encoding is lost; the Operand
References (10_state.md R53) and the extended immediates (30_encoding.md R130) are functions of these
(Machine/Operands.lean). DESIGN CHOICE, safe: notes/assumptions/12.md. -/

namespace Sys2Proof

/-- The general registers in x86 index order 0..7 (10_state.md R31). A register operand names one of
them; the view (32, 16 or 8 bits) comes from the operand size (R34). Under the 8-bit view the indices
4..7 name AH, CH, DH, BH (R33). -/
inductive Reg where
  | eax
  | ecx
  | edx
  | ebx
  | esp
  | ebp
  | esi
  | edi
  deriving DecidableEq, Repr

/-- The segment registers in sreg order 0..5 (10_state.md R51). -/
inductive SegReg where
  | es
  | cs
  | ss
  | ds
  | fs
  | gs
  deriving DecidableEq, Repr

/-- The scale 2^ss of a SIB index (30_encoding.md R123). -/
inductive Scale where
  | x1
  | x2
  | x4
  | x8
  deriving DecidableEq, Repr

/-- The sixteen condition codes, cc = 0..15, under their first names (46_control.md R334). -/
inductive Cond where
  | o
  | no
  | b
  | ae
  | e
  | ne
  | be
  | a
  | s
  | ns
  | p
  | np
  | l
  | ge
  | le
  | g
  deriving DecidableEq, Repr

/-- The admitted prefix bytes: 0x66, 0x67 and the six segment overrides (30_encoding.md R106, R107). -/
inductive Prefix where
  | opSize
  | addrSize
  | seg (s : SegReg)
  deriving DecidableEq, Repr

/-- The prefixes of one instruction occurrence: the default size defOS = defAS it was decoded under
(10_state.md R49) and its prefix bytes in the order they stand. -/
structure Prefixes where
  dflt : OpSize
  list : List Prefix
  deriving DecidableEq, Repr

/-- The base (and index) of a 16-bit address expression, rm = 0..7 (30_encoding.md R114). -/
inductive Base16 where
  | bxSi
  | bxDi
  | bpSi
  | bpDi
  | si
  | di
  | bp
  | bx
  deriving DecidableEq, Repr

/-- The displacement of a 16-bit form: mod = 0, 1, 2 (30_encoding.md R116). -/
inductive Disp16 where
  | none
  | d8 (v : BitVec 8)
  | d16 (v : BitVec 16)
  deriving DecidableEq, Repr

/-- The displacement of a 32-bit form: mod = 0, 1, 2 (30_encoding.md R121). -/
inductive Disp32 where
  | none
  | d8 (v : BitVec 8)
  | d32 (v : BitVec 32)
  deriving DecidableEq, Repr

/-- The memory forms of a ModRM byte (mod = 0, 1, 2), with SIB and displacement, as encoded. -/
inductive MemForm where
  /-- AS = 16: base (and index), displacement (30_encoding.md R114, R116). -/
  | based16 (b : Base16) (d : Disp16)
  /-- AS = 16, mod = 0, rm = 6: a 16-bit displacement alone (R115). -/
  | direct16 (d : BitVec 16)
  /-- AS = 32, rm not 4: base register, displacement (R119, R121). -/
  | based32 (b : Reg) (d : Disp32)
  /-- AS = 32, mod = 0, rm = 5: a 32-bit displacement alone (R120). -/
  | direct32 (d : BitVec 32)
  /-- AS = 32, rm = 4: SIB with a base; the index ESP means no index (R122, R123, R124). -/
  | sib (sc : Scale) (ix : Reg) (b : Reg) (d : Disp32)
  /-- AS = 32, rm = 4, mod = 0, SIB base = 5: SIB without a base, a 32-bit displacement (R124). -/
  | sibDirect (sc : Scale) (ix : Reg) (d : BitVec 32)
  deriving DecidableEq, Repr

/-- The r/m operand: a register (mod = 3, 30_encoding.md R112) or a memory form. -/
inductive Rm where
  | reg (r : Reg)
  | mem (m : MemForm)
  deriving DecidableEq, Repr

/-- An `iz`, `relz` or `moffs` field: 2 or 4 bytes (30_encoding.md R130). -/
inductive Immz where
  | i16 (v : BitVec 16)
  | i32 (v : BitVec 32)
  deriving DecidableEq, Repr

/-- The two opcode bytes of group 1 with an 8-bit operand: 82 is decoded exactly like 80
(30_encoding.md R134, R135). -/
inductive Opcode80 where
  | op80
  | op82
  deriving DecidableEq, Repr

/-- The kinds of decode fault (30_encoding.md R100). -/
inductive DecodeFault where
  /-- A byte could not be fetched: the oracle's vector and code (R103). -/
  | fetchFault (vector : Nat) (code : Option Word)
  /-- A byte-string query ran past its buffer; never in the machine (R101, 60_exceptions.md R404). -/
  | truncated
  /-- A reserved encoding: #UD, vector 6 (R142). -/
  | reserved
  /-- A sixteenth byte would be needed: #GP(0), vector 13 (R104). -/
  | tooLong
  deriving DecidableEq, Repr

/-- One decoded instruction: one constructor per row of spec/opcode_table.json, in the table's order.
`p` are the prefixes; `reg`, `rm`, `m` the ModRM fields; `r` the register in the opcode; `imm`, `rel`,
`off` the raw immediate, relative and moffs fields; `cc` the condition; `al` which of the bytes 80 and
82 was used; `ext` the ignored ModRM reg field of SETcc. -/
inductive Instr where
  /-- ADD r/m8, r8: 00 (R201). -/
  | addRm8R8 (p : Prefixes) (reg : Reg) (rm : Rm)
  /-- ADD r/mv, rv: 01 (R201). -/
  | addRmvRv (p : Prefixes) (reg : Reg) (rm : Rm)
  /-- ADD r8, r/m8: 02 (R201). -/
  | addR8Rm8 (p : Prefixes) (reg : Reg) (rm : Rm)
  /-- ADD rv, r/mv: 03 (R201). -/
  | addRvRmv (p : Prefixes) (reg : Reg) (rm : Rm)
  /-- ADD AL, imm8: 04 (R201). -/
  | addAlImm8 (p : Prefixes) (imm : BitVec 8)
  /-- ADD eAX, immz: 05 (R201). -/
  | addEaxImmz (p : Prefixes) (imm : Immz)
  /-- OR r/m8, r8: 08 (R231). -/
  | orRm8R8 (p : Prefixes) (reg : Reg) (rm : Rm)
  /-- OR r/mv, rv: 09 (R231). -/
  | orRmvRv (p : Prefixes) (reg : Reg) (rm : Rm)
  /-- OR r8, r/m8: 0A (R231). -/
  | orR8Rm8 (p : Prefixes) (reg : Reg) (rm : Rm)
  /-- OR rv, r/mv: 0B (R231). -/
  | orRvRmv (p : Prefixes) (reg : Reg) (rm : Rm)
  /-- OR AL, imm8: 0C (R231). -/
  | orAlImm8 (p : Prefixes) (imm : BitVec 8)
  /-- OR eAX, immz: 0D (R231). -/
  | orEaxImmz (p : Prefixes) (imm : Immz)
  /-- ADC r/m8, r8: 10 (R202). -/
  | adcRm8R8 (p : Prefixes) (reg : Reg) (rm : Rm)
  /-- ADC r/mv, rv: 11 (R202). -/
  | adcRmvRv (p : Prefixes) (reg : Reg) (rm : Rm)
  /-- ADC r8, r/m8: 12 (R202). -/
  | adcR8Rm8 (p : Prefixes) (reg : Reg) (rm : Rm)
  /-- ADC rv, r/mv: 13 (R202). -/
  | adcRvRmv (p : Prefixes) (reg : Reg) (rm : Rm)
  /-- ADC AL, imm8: 14 (R202). -/
  | adcAlImm8 (p : Prefixes) (imm : BitVec 8)
  /-- ADC eAX, immz: 15 (R202). -/
  | adcEaxImmz (p : Prefixes) (imm : Immz)
  /-- SBB r/m8, r8: 18 (R204). -/
  | sbbRm8R8 (p : Prefixes) (reg : Reg) (rm : Rm)
  /-- SBB r/mv, rv: 19 (R204). -/
  | sbbRmvRv (p : Prefixes) (reg : Reg) (rm : Rm)
  /-- SBB r8, r/m8: 1A (R204). -/
  | sbbR8Rm8 (p : Prefixes) (reg : Reg) (rm : Rm)
  /-- SBB rv, r/mv: 1B (R204). -/
  | sbbRvRmv (p : Prefixes) (reg : Reg) (rm : Rm)
  /-- SBB AL, imm8: 1C (R204). -/
  | sbbAlImm8 (p : Prefixes) (imm : BitVec 8)
  /-- SBB eAX, immz: 1D (R204). -/
  | sbbEaxImmz (p : Prefixes) (imm : Immz)
  /-- AND r/m8, r8: 20 (R230). -/
  | andRm8R8 (p : Prefixes) (reg : Reg) (rm : Rm)
  /-- AND r/mv, rv: 21 (R230). -/
  | andRmvRv (p : Prefixes) (reg : Reg) (rm : Rm)
  /-- AND r8, r/m8: 22 (R230). -/
  | andR8Rm8 (p : Prefixes) (reg : Reg) (rm : Rm)
  /-- AND rv, r/mv: 23 (R230). -/
  | andRvRmv (p : Prefixes) (reg : Reg) (rm : Rm)
  /-- AND AL, imm8: 24 (R230). -/
  | andAlImm8 (p : Prefixes) (imm : BitVec 8)
  /-- AND eAX, immz: 25 (R230). -/
  | andEaxImmz (p : Prefixes) (imm : Immz)
  /-- SUB r/m8, r8: 28 (R203). -/
  | subRm8R8 (p : Prefixes) (reg : Reg) (rm : Rm)
  /-- SUB r/mv, rv: 29 (R203). -/
  | subRmvRv (p : Prefixes) (reg : Reg) (rm : Rm)
  /-- SUB r8, r/m8: 2A (R203). -/
  | subR8Rm8 (p : Prefixes) (reg : Reg) (rm : Rm)
  /-- SUB rv, r/mv: 2B (R203). -/
  | subRvRmv (p : Prefixes) (reg : Reg) (rm : Rm)
  /-- SUB AL, imm8: 2C (R203). -/
  | subAlImm8 (p : Prefixes) (imm : BitVec 8)
  /-- SUB eAX, immz: 2D (R203). -/
  | subEaxImmz (p : Prefixes) (imm : Immz)
  /-- XOR r/m8, r8: 30 (R232). -/
  | xorRm8R8 (p : Prefixes) (reg : Reg) (rm : Rm)
  /-- XOR r/mv, rv: 31 (R232). -/
  | xorRmvRv (p : Prefixes) (reg : Reg) (rm : Rm)
  /-- XOR r8, r/m8: 32 (R232). -/
  | xorR8Rm8 (p : Prefixes) (reg : Reg) (rm : Rm)
  /-- XOR rv, r/mv: 33 (R232). -/
  | xorRvRmv (p : Prefixes) (reg : Reg) (rm : Rm)
  /-- XOR AL, imm8: 34 (R232). -/
  | xorAlImm8 (p : Prefixes) (imm : BitVec 8)
  /-- XOR eAX, immz: 35 (R232). -/
  | xorEaxImmz (p : Prefixes) (imm : Immz)
  /-- CMP r/m8, r8: 38 (R205). -/
  | cmpRm8R8 (p : Prefixes) (reg : Reg) (rm : Rm)
  /-- CMP r/mv, rv: 39 (R205). -/
  | cmpRmvRv (p : Prefixes) (reg : Reg) (rm : Rm)
  /-- CMP r8, r/m8: 3A (R205). -/
  | cmpR8Rm8 (p : Prefixes) (reg : Reg) (rm : Rm)
  /-- CMP rv, r/mv: 3B (R205). -/
  | cmpRvRmv (p : Prefixes) (reg : Reg) (rm : Rm)
  /-- CMP AL, imm8: 3C (R205). -/
  | cmpAlImm8 (p : Prefixes) (imm : BitVec 8)
  /-- CMP eAX, immz: 3D (R205). -/
  | cmpEaxImmz (p : Prefixes) (imm : Immz)
  /-- ADD r/m8, imm8: 80 /0 (R201). -/
  | addRm8Imm8 (p : Prefixes) (al : Opcode80) (rm : Rm) (imm : BitVec 8)
  /-- ADD r/mv, immz: 81 /0 (R201). -/
  | addRmvImmz (p : Prefixes) (rm : Rm) (imm : Immz)
  /-- ADD r/mv, imm8: 83 /0 (R201). -/
  | addRmvImm8 (p : Prefixes) (rm : Rm) (imm : BitVec 8)
  /-- OR r/m8, imm8: 80 /1 (R231). -/
  | orRm8Imm8 (p : Prefixes) (al : Opcode80) (rm : Rm) (imm : BitVec 8)
  /-- OR r/mv, immz: 81 /1 (R231). -/
  | orRmvImmz (p : Prefixes) (rm : Rm) (imm : Immz)
  /-- OR r/mv, imm8: 83 /1 (R231). -/
  | orRmvImm8 (p : Prefixes) (rm : Rm) (imm : BitVec 8)
  /-- ADC r/m8, imm8: 80 /2 (R202). -/
  | adcRm8Imm8 (p : Prefixes) (al : Opcode80) (rm : Rm) (imm : BitVec 8)
  /-- ADC r/mv, immz: 81 /2 (R202). -/
  | adcRmvImmz (p : Prefixes) (rm : Rm) (imm : Immz)
  /-- ADC r/mv, imm8: 83 /2 (R202). -/
  | adcRmvImm8 (p : Prefixes) (rm : Rm) (imm : BitVec 8)
  /-- SBB r/m8, imm8: 80 /3 (R204). -/
  | sbbRm8Imm8 (p : Prefixes) (al : Opcode80) (rm : Rm) (imm : BitVec 8)
  /-- SBB r/mv, immz: 81 /3 (R204). -/
  | sbbRmvImmz (p : Prefixes) (rm : Rm) (imm : Immz)
  /-- SBB r/mv, imm8: 83 /3 (R204). -/
  | sbbRmvImm8 (p : Prefixes) (rm : Rm) (imm : BitVec 8)
  /-- AND r/m8, imm8: 80 /4 (R230). -/
  | andRm8Imm8 (p : Prefixes) (al : Opcode80) (rm : Rm) (imm : BitVec 8)
  /-- AND r/mv, immz: 81 /4 (R230). -/
  | andRmvImmz (p : Prefixes) (rm : Rm) (imm : Immz)
  /-- AND r/mv, imm8: 83 /4 (R230). -/
  | andRmvImm8 (p : Prefixes) (rm : Rm) (imm : BitVec 8)
  /-- SUB r/m8, imm8: 80 /5 (R203). -/
  | subRm8Imm8 (p : Prefixes) (al : Opcode80) (rm : Rm) (imm : BitVec 8)
  /-- SUB r/mv, immz: 81 /5 (R203). -/
  | subRmvImmz (p : Prefixes) (rm : Rm) (imm : Immz)
  /-- SUB r/mv, imm8: 83 /5 (R203). -/
  | subRmvImm8 (p : Prefixes) (rm : Rm) (imm : BitVec 8)
  /-- XOR r/m8, imm8: 80 /6 (R232). -/
  | xorRm8Imm8 (p : Prefixes) (al : Opcode80) (rm : Rm) (imm : BitVec 8)
  /-- XOR r/mv, immz: 81 /6 (R232). -/
  | xorRmvImmz (p : Prefixes) (rm : Rm) (imm : Immz)
  /-- XOR r/mv, imm8: 83 /6 (R232). -/
  | xorRmvImm8 (p : Prefixes) (rm : Rm) (imm : BitVec 8)
  /-- CMP r/m8, imm8: 80 /7 (R205). -/
  | cmpRm8Imm8 (p : Prefixes) (al : Opcode80) (rm : Rm) (imm : BitVec 8)
  /-- CMP r/mv, immz: 81 /7 (R205). -/
  | cmpRmvImmz (p : Prefixes) (rm : Rm) (imm : Immz)
  /-- CMP r/mv, imm8: 83 /7 (R205). -/
  | cmpRmvImm8 (p : Prefixes) (rm : Rm) (imm : BitVec 8)
  /-- INC rv: 40+r (R206). -/
  | incRv (p : Prefixes) (r : Reg)
  /-- DEC rv: 48+r (R207). -/
  | decRv (p : Prefixes) (r : Reg)
  /-- PUSH rv: 50+r (R319). -/
  | pushRv (p : Prefixes) (r : Reg)
  /-- POP rv: 58+r (R322). -/
  | popRv (p : Prefixes) (r : Reg)
  /-- PUSH immz: 68 (R320). -/
  | pushImmz (p : Prefixes) (imm : Immz)
  /-- IMUL rv, r/mv, immz: 69 (R284). -/
  | imulRvRmvImmz (p : Prefixes) (reg : Reg) (rm : Rm) (imm : Immz)
  /-- PUSH imm8: 6A (R320). -/
  | pushImm8 (p : Prefixes) (imm : BitVec 8)
  /-- IMUL rv, r/mv, imm8: 6B (R284). -/
  | imulRvRmvImm8 (p : Prefixes) (reg : Reg) (rm : Rm) (imm : BitVec 8)
  /-- Jcc rel8: 70+cc (R335). -/
  | jccRel8 (p : Prefixes) (cc : Cond) (rel : BitVec 8)
  /-- TEST r/m8, r8: 84 (R233). -/
  | testRm8R8 (p : Prefixes) (reg : Reg) (rm : Rm)
  /-- TEST r/mv, rv: 85 (R233). -/
  | testRmvRv (p : Prefixes) (reg : Reg) (rm : Rm)
  /-- XCHG r/m8, r8: 86 (R307). -/
  | xchgRm8R8 (p : Prefixes) (reg : Reg) (rm : Rm)
  /-- XCHG r/mv, rv: 87 (R307). -/
  | xchgRmvRv (p : Prefixes) (reg : Reg) (rm : Rm)
  /-- MOV r/m8, r8: 88 (R300). -/
  | movRm8R8 (p : Prefixes) (reg : Reg) (rm : Rm)
  /-- MOV r/mv, rv: 89 (R300). -/
  | movRmvRv (p : Prefixes) (reg : Reg) (rm : Rm)
  /-- MOV r8, r/m8: 8A (R300). -/
  | movR8Rm8 (p : Prefixes) (reg : Reg) (rm : Rm)
  /-- MOV rv, r/mv: 8B (R300). -/
  | movRvRmv (p : Prefixes) (reg : Reg) (rm : Rm)
  /-- LEA rv, m: 8D (R304). -/
  | leaRvM (p : Prefixes) (reg : Reg) (m : MemForm)
  /-- NOP: 90 (R363). -/
  | nop (p : Prefixes)
  /-- XCHG eAX, eCX: 91 (R308). -/
  | xchgEaxEcx (p : Prefixes)
  /-- XCHG eAX, eDX: 92 (R308). -/
  | xchgEaxEdx (p : Prefixes)
  /-- XCHG eAX, eBX: 93 (R308). -/
  | xchgEaxEbx (p : Prefixes)
  /-- XCHG eAX, eSP: 94 (R308). -/
  | xchgEaxEsp (p : Prefixes)
  /-- XCHG eAX, eBP: 95 (R308). -/
  | xchgEaxEbp (p : Prefixes)
  /-- XCHG eAX, eSI: 96 (R308). -/
  | xchgEaxEsi (p : Prefixes)
  /-- XCHG eAX, eDI: 97 (R308). -/
  | xchgEaxEdi (p : Prefixes)
  /-- CBW/CWDE: 98 (R287). -/
  | cbwCwde (p : Prefixes)
  /-- CWD/CDQ: 99 (R288). -/
  | cwdCdq (p : Prefixes)
  /-- MOV AL, moffs8: A0 (R303). -/
  | movAlMoffs8 (p : Prefixes) (off : Immz)
  /-- MOV eAX, moffsv: A1 (R303). -/
  | movEaxMoffsv (p : Prefixes) (off : Immz)
  /-- MOV moffs8, AL: A2 (R303). -/
  | movMoffs8Al (p : Prefixes) (off : Immz)
  /-- MOV moffsv, eAX: A3 (R303). -/
  | movMoffsvEax (p : Prefixes) (off : Immz)
  /-- TEST AL, imm8: A8 (R233). -/
  | testAlImm8 (p : Prefixes) (imm : BitVec 8)
  /-- TEST eAX, immz: A9 (R233). -/
  | testEaxImmz (p : Prefixes) (imm : Immz)
  /-- MOV r8, imm8: B0+r (R301). -/
  | movR8Imm8 (p : Prefixes) (r : Reg) (imm : BitVec 8)
  /-- MOV rv, immz: B8+r (R301). -/
  | movRvImmz (p : Prefixes) (r : Reg) (imm : Immz)
  /-- ROL r/m8, imm8: C0 /0 (R251). -/
  | rolRm8Imm8 (p : Prefixes) (rm : Rm) (imm : BitVec 8)
  /-- ROL r/mv, imm8: C1 /0 (R251). -/
  | rolRmvImm8 (p : Prefixes) (rm : Rm) (imm : BitVec 8)
  /-- ROL r/m8, 1: D0 /0 (R251). -/
  | rolRm8One (p : Prefixes) (rm : Rm)
  /-- ROL r/mv, 1: D1 /0 (R251). -/
  | rolRmvOne (p : Prefixes) (rm : Rm)
  /-- ROL r/m8, CL: D2 /0 (R251). -/
  | rolRm8Cl (p : Prefixes) (rm : Rm)
  /-- ROL r/mv, CL: D3 /0 (R251). -/
  | rolRmvCl (p : Prefixes) (rm : Rm)
  /-- ROR r/m8, imm8: C0 /1 (R252). -/
  | rorRm8Imm8 (p : Prefixes) (rm : Rm) (imm : BitVec 8)
  /-- ROR r/mv, imm8: C1 /1 (R252). -/
  | rorRmvImm8 (p : Prefixes) (rm : Rm) (imm : BitVec 8)
  /-- ROR r/m8, 1: D0 /1 (R252). -/
  | rorRm8One (p : Prefixes) (rm : Rm)
  /-- ROR r/mv, 1: D1 /1 (R252). -/
  | rorRmvOne (p : Prefixes) (rm : Rm)
  /-- ROR r/m8, CL: D2 /1 (R252). -/
  | rorRm8Cl (p : Prefixes) (rm : Rm)
  /-- ROR r/mv, CL: D3 /1 (R252). -/
  | rorRmvCl (p : Prefixes) (rm : Rm)
  /-- RCL r/m8, imm8: C0 /2 (R253). -/
  | rclRm8Imm8 (p : Prefixes) (rm : Rm) (imm : BitVec 8)
  /-- RCL r/mv, imm8: C1 /2 (R253). -/
  | rclRmvImm8 (p : Prefixes) (rm : Rm) (imm : BitVec 8)
  /-- RCL r/m8, 1: D0 /2 (R253). -/
  | rclRm8One (p : Prefixes) (rm : Rm)
  /-- RCL r/mv, 1: D1 /2 (R253). -/
  | rclRmvOne (p : Prefixes) (rm : Rm)
  /-- RCL r/m8, CL: D2 /2 (R253). -/
  | rclRm8Cl (p : Prefixes) (rm : Rm)
  /-- RCL r/mv, CL: D3 /2 (R253). -/
  | rclRmvCl (p : Prefixes) (rm : Rm)
  /-- RCR r/m8, imm8: C0 /3 (R254). -/
  | rcrRm8Imm8 (p : Prefixes) (rm : Rm) (imm : BitVec 8)
  /-- RCR r/mv, imm8: C1 /3 (R254). -/
  | rcrRmvImm8 (p : Prefixes) (rm : Rm) (imm : BitVec 8)
  /-- RCR r/m8, 1: D0 /3 (R254). -/
  | rcrRm8One (p : Prefixes) (rm : Rm)
  /-- RCR r/mv, 1: D1 /3 (R254). -/
  | rcrRmvOne (p : Prefixes) (rm : Rm)
  /-- RCR r/m8, CL: D2 /3 (R254). -/
  | rcrRm8Cl (p : Prefixes) (rm : Rm)
  /-- RCR r/mv, CL: D3 /3 (R254). -/
  | rcrRmvCl (p : Prefixes) (rm : Rm)
  /-- SHL r/m8, imm8: C0 /4 (R255). -/
  | shlRm8Imm8 (p : Prefixes) (rm : Rm) (imm : BitVec 8)
  /-- SHL r/mv, imm8: C1 /4 (R255). -/
  | shlRmvImm8 (p : Prefixes) (rm : Rm) (imm : BitVec 8)
  /-- SHL r/m8, 1: D0 /4 (R255). -/
  | shlRm8One (p : Prefixes) (rm : Rm)
  /-- SHL r/mv, 1: D1 /4 (R255). -/
  | shlRmvOne (p : Prefixes) (rm : Rm)
  /-- SHL r/m8, CL: D2 /4 (R255). -/
  | shlRm8Cl (p : Prefixes) (rm : Rm)
  /-- SHL r/mv, CL: D3 /4 (R255). -/
  | shlRmvCl (p : Prefixes) (rm : Rm)
  /-- SHR r/m8, imm8: C0 /5 (R256). -/
  | shrRm8Imm8 (p : Prefixes) (rm : Rm) (imm : BitVec 8)
  /-- SHR r/mv, imm8: C1 /5 (R256). -/
  | shrRmvImm8 (p : Prefixes) (rm : Rm) (imm : BitVec 8)
  /-- SHR r/m8, 1: D0 /5 (R256). -/
  | shrRm8One (p : Prefixes) (rm : Rm)
  /-- SHR r/mv, 1: D1 /5 (R256). -/
  | shrRmvOne (p : Prefixes) (rm : Rm)
  /-- SHR r/m8, CL: D2 /5 (R256). -/
  | shrRm8Cl (p : Prefixes) (rm : Rm)
  /-- SHR r/mv, CL: D3 /5 (R256). -/
  | shrRmvCl (p : Prefixes) (rm : Rm)
  /-- SAR r/m8, imm8: C0 /7 (R257). -/
  | sarRm8Imm8 (p : Prefixes) (rm : Rm) (imm : BitVec 8)
  /-- SAR r/mv, imm8: C1 /7 (R257). -/
  | sarRmvImm8 (p : Prefixes) (rm : Rm) (imm : BitVec 8)
  /-- SAR r/m8, 1: D0 /7 (R257). -/
  | sarRm8One (p : Prefixes) (rm : Rm)
  /-- SAR r/mv, 1: D1 /7 (R257). -/
  | sarRmvOne (p : Prefixes) (rm : Rm)
  /-- SAR r/m8, CL: D2 /7 (R257). -/
  | sarRm8Cl (p : Prefixes) (rm : Rm)
  /-- SAR r/mv, CL: D3 /7 (R257). -/
  | sarRmvCl (p : Prefixes) (rm : Rm)
  /-- RET imm16: C2 (R341). -/
  | retImm16 (p : Prefixes) (imm : BitVec 16)
  /-- RET: C3 (R340). -/
  | ret (p : Prefixes)
  /-- MOV r/m8, imm8: C6 /0 (R302). -/
  | movRm8Imm8 (p : Prefixes) (rm : Rm) (imm : BitVec 8)
  /-- MOV r/mv, immz: C7 /0 (R302). -/
  | movRmvImmz (p : Prefixes) (rm : Rm) (imm : Immz)
  /-- CALL relz: E8 (R339). -/
  | callRelz (p : Prefixes) (rel : Immz)
  /-- JMP relz: E9 (R338). -/
  | jmpRelz (p : Prefixes) (rel : Immz)
  /-- JMP rel8: EB (R337). -/
  | jmpRel8 (p : Prefixes) (rel : BitVec 8)
  /-- HLT: F4 (R364). -/
  | hlt (p : Prefixes)
  /-- CMC: F5 (R362). -/
  | cmc (p : Prefixes)
  /-- TEST r/m8, imm8: F6 /0 (R233). -/
  | testRm8Imm8 (p : Prefixes) (rm : Rm) (imm : BitVec 8)
  /-- TEST r/mv, immz: F7 /0 (R233). -/
  | testRmvImmz (p : Prefixes) (rm : Rm) (imm : Immz)
  /-- NOT r/m8: F6 /2 (R234). -/
  | notRm8 (p : Prefixes) (rm : Rm)
  /-- NOT r/mv: F7 /2 (R234). -/
  | notRmv (p : Prefixes) (rm : Rm)
  /-- NEG r/m8: F6 /3 (R208). -/
  | negRm8 (p : Prefixes) (rm : Rm)
  /-- NEG r/mv: F7 /3 (R208). -/
  | negRmv (p : Prefixes) (rm : Rm)
  /-- MUL r/m8: F6 /4 (R281). -/
  | mulRm8 (p : Prefixes) (rm : Rm)
  /-- MUL r/mv: F7 /4 (R281). -/
  | mulRmv (p : Prefixes) (rm : Rm)
  /-- IMUL r/m8: F6 /5 (R282). -/
  | imulRm8 (p : Prefixes) (rm : Rm)
  /-- IMUL r/mv: F7 /5 (R282). -/
  | imulRmv (p : Prefixes) (rm : Rm)
  /-- DIV r/m8: F6 /6 (R285). -/
  | divRm8 (p : Prefixes) (rm : Rm)
  /-- DIV r/mv: F7 /6 (R285). -/
  | divRmv (p : Prefixes) (rm : Rm)
  /-- IDIV r/m8: F6 /7 (R286). -/
  | idivRm8 (p : Prefixes) (rm : Rm)
  /-- IDIV r/mv: F7 /7 (R286). -/
  | idivRmv (p : Prefixes) (rm : Rm)
  /-- CLC: F8 (R360). -/
  | clc (p : Prefixes)
  /-- STC: F9 (R361). -/
  | stc (p : Prefixes)
  /-- INC r/m8: FE /0 (R206). -/
  | incRm8 (p : Prefixes) (rm : Rm)
  /-- DEC r/m8: FE /1 (R207). -/
  | decRm8 (p : Prefixes) (rm : Rm)
  /-- INC r/mv: FF /0 (R206). -/
  | incRmv (p : Prefixes) (rm : Rm)
  /-- DEC r/mv: FF /1 (R207). -/
  | decRmv (p : Prefixes) (rm : Rm)
  /-- CALL r/mv: FF /2 (R345). -/
  | callRmv (p : Prefixes) (rm : Rm)
  /-- JMP r/mv: FF /4 (R342). -/
  | jmpRmv (p : Prefixes) (rm : Rm)
  /-- PUSH r/mv: FF /6 (R321). -/
  | pushRmv (p : Prefixes) (rm : Rm)
  /-- UD2 (Reserved, #UD): 0F 0B (R142). -/
  | ud2 (p : Prefixes)
  /-- Jcc relz: 0F 80+cc (R336). -/
  | jccRelz (p : Prefixes) (cc : Cond) (rel : Immz)
  /-- SETcc r/m8: 0F 90+cc (R323). -/
  | setccRm8 (p : Prefixes) (cc : Cond) (ext : BitVec 3) (rm : Rm)
  /-- IMUL rv, r/mv: 0F AF (R283). -/
  | imulRvRmv (p : Prefixes) (reg : Reg) (rm : Rm)
  /-- MOVZX rv, r/m8: 0F B6 (R305). -/
  | movzxRvRm8 (p : Prefixes) (reg : Reg) (rm : Rm)
  /-- MOVZX rv, r/m16: 0F B7 (R305). -/
  | movzxRvRm16 (p : Prefixes) (reg : Reg) (rm : Rm)
  /-- MOVSX rv, r/m8: 0F BE (R306). -/
  | movsxRvRm8 (p : Prefixes) (reg : Reg) (rm : Rm)
  /-- MOVSX rv, r/m16: 0F BF (R306). -/
  | movsxRvRm16 (p : Prefixes) (reg : Reg) (rm : Rm)
  deriving DecidableEq, Repr

end Sys2Proof
end

