-- ==== Sys2Proof/Config.lean ====
section
/-! DEFINITION. Config: what the spec leaves to a parameter or to a draw (00_scope.md R8,
93_implementation_defined.md). The parameters are plain data, held in State and never written by a step,
so that a statement about every state is a statement about every value of them; the draws are an opaque
function of a counter. -/

namespace Sys2Proof

/-- `MAX_INSN_LEN` (00_scope.md R8, 30_encoding.md R104). -/
def maxInsnLen : Nat := 15

/-- What an access asks the oracle for (20_memory.md R74). `branch` is the check of a control-transfer
target (46_control.md R333). -/
inductive AccessKind where
  | read
  | write
  | fetch
  | branch
  deriving DecidableEq, Repr

/-- An answer of the access oracle: Ok, Fault(vector, code) or Unmodelled (20_memory.md R74). The code
of a fault is an error code or none (60_exceptions.md R402). -/
inductive AccessAnswer where
  | ok
  | fault (vector : Nat) (code : Option Word)
  | unmodelled
  deriving DecidableEq, Repr

/-- One entry of the oracle's table: the accesses of kind `kind` in segment `seg` whose offset lies in
`lo..hi` and whose size is `size` (none: any size) get `answer`. DESIGN CHOICE, safe:
notes/assumptions/2.md. -/
structure AccessRule where
  kind : AccessKind
  seg : SegReg
  lo : Word
  hi : Word
  size : Option Nat
  answer : AccessAnswer
  deriving DecidableEq, Repr

/-- The parameters of the model (00_scope.md R8). -/
structure Params where
  /-- `MAX_BLOCK_LEN`, a natural number at least 1, OPEN (92_eei_decisions.md D34). -/
  maxBlockLen : Nat
  /-- `ROT_COUNT_MASK5`, default true (92_eei_decisions.md D5). -/
  rotCountMask5 : Bool
  /-- `RESET_EDX`, OPEN (92_eei_decisions.md D20). -/
  resetEdx : Word
  /-- The access oracle as a table: the first entry that fits answers, and Ok where none fits
  (20_memory.md R74). -/
  access : List AccessRule
  deriving DecidableEq, Repr

/-- The parameters satisfy their stated bounds (00_scope.md R8). -/
def Params.wf (q : Params) : Bool := decide (1 ≤ q.maxBlockLen)

/-- The draws `MulUndef` and `ShiftUndef`: the n-th free bit of the run, under no law (44_muldiv.md R280,
43_shift_rotate.md R255). It has no body: nothing can be proved of its values. DESIGN CHOICE, safe:
notes/assumptions/7.md. -/
opaque Config.freeBit : Nat → Bool

end Sys2Proof
end

