-- ==== Sys2Proof/Machine/State.lean ====
section
/-! DEFINITION. State: everything 00_scope.md to 10_state.md give the machine, as plain data, with what
one `executeBlock` holds while it runs (10_state.md R58) and what it returns (40_unit_protocol.md R180),
the parameters (00_scope.md R8) and the model's own draw counter. -/

namespace Sys2Proof.Machine

/-- Why the machine stops with a fault. Each is raised by `step` only, never by a meaning. -/
inductive Fault where
  /-- Raised by `step` when the last block ended in Halt, a trap or a decode fault: the run has ended
  and what comes next is the driver's (40_unit_protocol.md R191; 93 I20). Safe: the model stops where the
  driver may go on. -/
  | runEnded
  /-- Raised by `step` when the running block was assembled for another mode than the state's: the
  invalid-mode-cast of 60_exceptions.md R400, R401 (93 I18: stuck). No run reaches it. Safe. -/
  | invalidModeCast
  /-- Raised by `step` when the running block has no unit left, or its next unit does not start at eip:
  the `require` of 40_unit_protocol.md R165 fails. No run reaches it. Safe. -/
  | staleBlock
  deriving DecidableEq, Repr

/-- The refusal reasons of 40_unit_protocol.md R168. Each is safe: a refused state has no further step
and nothing is claimed of it. -/
inductive Refusal where
  /-- Raised by `exec` for an instruction that has no meaning yet. -/
  | notModelled (mnemonic : String)
  /-- Raised by the decoder at a block's first instruction (30_encoding.md R109, R141). -/
  | notAdmitted (bytes : List Byte)
  /-- Raised by the decoder at a block's first instruction (30_encoding.md R108). -/
  | multipleSegmentOverride
  /-- Raised by a fetch at a block's first instruction, or by a unit, when the oracle answers Unmodelled
  (20_memory.md R75, R78; 46_control.md R333). -/
  | unmodelledMemory
  /-- Raised by `step` and `executeBlock` at a block's entry when TF = 1 (10_state.md R43). -/
  | singleStepUnmodelled
  /-- Raised by a unit that stores into the running block (70_reset_and_hazards.md R460). -/
  | selfModifyingBlock
  /-- Raised by `setState` (40_unit_protocol.md R187). -/
  | invalidSnapshot
  deriving DecidableEq, Repr

/-- The general registers EAX .. EDI, 32 bits each (10_state.md R31). -/
structure Gprs where
  eax : Word
  ecx : Word
  edx : Word
  ebx : Word
  esp : Word
  ebp : Word
  esi : Word
  edi : Word
  deriving DecidableEq, Repr

/-- The six status flags (10_state.md R40). -/
structure Flags where
  cf : Bool
  pf : Bool
  af : Bool
  zf : Bool
  sf : Bool
  of : Bool
  deriving DecidableEq, Repr

/-- The processor mode (10_state.md R45). -/
inductive Mode where
  | real
  | prot
  | v86
  deriving DecidableEq, Repr

/-- One segment register: selector and hidden base (10_state.md R51). -/
structure Segment where
  sel : BitVec 16
  base : Word
  deriving DecidableEq, Repr

/-- The six segment registers (10_state.md R51). -/
structure Segs where
  es : Segment
  cs : Segment
  ss : Segment
  ds : Segment
  fs : Segment
  gs : Segment
  deriving DecidableEq, Repr

/-- Memory as the list of (address, byte) pairs that differ from what an unlisted address reads as, the
addresses strictly rising (`Memory.wf` in Machine/Ops.lean); 20_memory.md R70. -/
abbrev Memory := List Host.Cell

/-- The branch-outcome tag of a unit (40_unit_protocol.md R164). -/
inductive Tag where
  | noBranch
  | jump (target : Word)
  | cond (taken : Bool) (target : Word)
  | trap (vector : Nat) (code : Option Word)
  | halt
  deriving DecidableEq, Repr

/-- The result of a block (40_unit_protocol.md R180, `end`; 60_exceptions.md R400). -/
inductive BlockEnd where
  | fallthrough
  | jump (target : Word)
  | cond (taken : Bool) (target : Word)
  | halt
  | trap (vector : Nat) (code : Option Word)
  | decodeFault (k : DecodeFault)
  deriving DecidableEq, Repr

/-- What `executeBlock` returns beside the state: the count of units completed and the result
(40_unit_protocol.md R180, R181). -/
structure Report where
  count : Nat
  result : BlockEnd
  deriving DecidableEq, Repr

/-- An instruction unit: where it starts in CS and what it is (40_unit_protocol.md R160). Its length is
`instr.len`. -/
structure InsnUnit where
  start : Word
  instr : Instr
  deriving DecidableEq, Repr

/-- The block that is running: its entry and mode (40_unit_protocol.md R175) and its units, those that
have completed and those still to run, in order. -/
structure RunningBlock where
  entry : Word
  mode : Mode
  done : List InsnUnit
  todo : List InsnUnit
  deriving DecidableEq, Repr

/-- The state of the machine: the record of 10_state.md R30, then the parameters, the transient state of
a block and the draw counter (INVENTORY.md). -/
structure State where
  gpr : Gprs
  eip : Word
  flags : Flags
  /-- Every EFLAGS bit but the six status flags, at its x86 position (10_state.md R43). -/
  eflagsOther : Word
  mode : Mode
  codeSize32 : Bool
  stackSize32 : Bool
  cpl : BitVec 2
  seg : Segs
  mem : Memory
  refused : Option Refusal
  /-- The parameters of the model, never written (00_scope.md R8). -/
  params : Params
  /-- The block that is running, none between blocks (10_state.md R58; notes/assumptions/1.md). -/
  block : Option RunningBlock
  /-- The tag of the last unit (40_unit_protocol.md R164; notes/assumptions/1.md). -/
  lastTag : Tag
  /-- What the last block returned, none while a block runs (40_unit_protocol.md R180;
  notes/assumptions/1.md). -/
  report : Option Report
  /-- The model's own: the index of the next draw (notes/assumptions/7.md). -/
  draws : Nat
  deriving DecidableEq, Repr

/-- The parameters State.reset takes: MAX_BLOCK_LEN 4 and RESET_EDX 0 and an oracle that answers Ok are
DESIGN CHOICE, unsafe (notes/assumptions/2.md, 3.md, 5.md); ROT_COUNT_MASK5 is the spec's default
(notes/assumptions/4.md). -/
def Params.default : Params where
  maxBlockLen := 4
  rotCountMask5 := true
  resetEdx := 0
  access := []

/-- The reset state of 10_state.md R60 and 70_reset_and_hazards.md R450 under given parameters. The
memory contents are unspecified there: nothing is listed (notes/assumptions/6.md). -/
def State.resetWith (q : Params) : State where
  gpr := ⟨0, 0, q.resetEdx, 0, 0, 0, 0, 0⟩
  eip := 0x0000FFF0
  flags := ⟨false, false, false, false, false, false⟩
  eflagsOther := 0x00000002
  mode := .real
  codeSize32 := false
  stackSize32 := false
  cpl := 0
  seg := ⟨⟨0, 0⟩, ⟨0xF000, 0xFFFF0000⟩, ⟨0, 0⟩, ⟨0, 0⟩, ⟨0, 0⟩, ⟨0, 0⟩⟩
  mem := []
  refused := none
  params := q
  block := none
  lastTag := .noBranch
  report := none
  draws := 0

/-- The machine right after reset. -/
def State.reset : State := State.resetWith Params.default

end Sys2Proof.Machine
end

