-- ==== Sys2Proof/Machine/Flags.lean ====
section
/-! DEFINITION. Flags: the flag generator shared by the instruction rules (40_unit_protocol.md R169 to
R174), for any width, and the condition codes (46_control.md R334). Every result is first computed as an
exact integer and then truncated (R163). -/

namespace Sys2Proof.Machine

/-- `parity(r)`: the low eight bits hold an even number of ones (R169). -/
def parity {n : Nat} (r : BitVec n) : Bool :=
  ((List.range 8).filter fun k => r.getLsbD k).length % 2 == 0

/-- `szp(N, r)` (R170). -/
def szp {n : Nat} (r : BitVec n) (f : Flags) : Flags :=
  { f with sf := r.msb, zf := r == 0, pf := parity r }

/-- The truncated sum of `addFlags` (R171). -/
def addResult {n : Nat} (a b : BitVec n) (cin : Bool) : BitVec n :=
  BitVec.ofNat n (a.toNat + b.toNat + cin.toNat)

/-- The flags of `addFlags(N, a, b, cin)` (R171). -/
def addFlags {n : Nat} (a b : BitVec n) (cin : Bool) (f : Flags) : Flags :=
  let t := a.toNat + b.toNat + cin.toNat
  let r := addResult a b cin
  szp r { f with
    cf := decide (2 ^ n ≤ t)
    of := a.msb == b.msb && r.msb != a.msb
    af := (a ^^^ b ^^^ r).getLsbD 4 }

/-- The truncated difference of `subFlags` (R172). -/
def subResult {n : Nat} (a b : BitVec n) (bin : Bool) : BitVec n :=
  BitVec.ofInt n ((a.toNat : Int) - b.toNat - bin.toNat)

/-- The flags of `subFlags(N, a, b, bin)` (R172). -/
def subFlags {n : Nat} (a b : BitVec n) (bin : Bool) (f : Flags) : Flags :=
  let r := subResult a b bin
  szp r { f with
    cf := decide (a.toNat < b.toNat + bin.toNat)
    of := a.msb != b.msb && r.msb != a.msb
    af := (a ^^^ b ^^^ r).getLsbD 4 }

/-- `logicFlags(N, r)`: AF is left unchanged (R173). -/
def logicFlags {n : Nat} (r : BitVec n) (f : Flags) : Flags := szp r { f with cf := false, of := false }

/-- A two-operand operation of the ALU at any width: result and flags from the flags before the unit. -/
abbrev AluOp := (n : Nat) → Flags → BitVec n → BitVec n → BitVec n × Flags

/-- A one-operand operation of the ALU. -/
abbrev UnaryOp := (n : Nat) → Flags → BitVec n → BitVec n × Flags

/-- ADD (41_arith.md R201). -/
def aluAdd : AluOp := fun _ f a b => (addResult a b false, addFlags a b false f)

/-- ADC (41_arith.md R202). -/
def aluAdc : AluOp := fun _ f a b => (addResult a b f.cf, addFlags a b f.cf f)

/-- SUB, and the flags of CMP (41_arith.md R203, R205). -/
def aluSub : AluOp := fun _ f a b => (subResult a b false, subFlags a b false f)

/-- SBB (41_arith.md R204). -/
def aluSbb : AluOp := fun _ f a b => (subResult a b f.cf, subFlags a b f.cf f)

/-- AND, and the flags of TEST (42_logic.md R230, R233). -/
def aluAnd : AluOp := fun _ f a b => (a &&& b, logicFlags (a &&& b) f)

/-- OR (42_logic.md R231). -/
def aluOr : AluOp := fun _ f a b => (a ||| b, logicFlags (a ||| b) f)

/-- XOR (42_logic.md R232). -/
def aluXor : AluOp := fun _ f a b => (a ^^^ b, logicFlags (a ^^^ b) f)

/-- INC: CF is not staged (41_arith.md R206). -/
def aluInc : UnaryOp := fun n f a =>
  (addResult a (BitVec.ofNat n 1) false, { addFlags a (BitVec.ofNat n 1) false f with cf := f.cf })

/-- DEC: CF is not staged (41_arith.md R207). -/
def aluDec : UnaryOp := fun n f a =>
  (subResult a (BitVec.ofNat n 1) false, { subFlags a (BitVec.ofNat n 1) false f with cf := f.cf })

/-- NEG: 0 - a (41_arith.md R208). -/
def aluNeg : UnaryOp := fun n f a => (subResult (BitVec.ofNat n 0) a false, subFlags (BitVec.ofNat n 0) a false f)

/-- NOT: no flag (42_logic.md R234). -/
def aluNot : UnaryOp := fun _ f a => (~~~a, f)

/-- `cond(cc)` (46_control.md R334). -/
def Cond.holds (f : Flags) : Cond → Bool
  | .o => f.of
  | .no => !f.of
  | .b => f.cf
  | .ae => !f.cf
  | .e => f.zf
  | .ne => !f.zf
  | .be => f.cf || f.zf
  | .a => !f.cf && !f.zf
  | .s => f.sf
  | .ns => !f.sf
  | .p => f.pf
  | .np => !f.pf
  | .l => f.sf != f.of
  | .ge => f.sf == f.of
  | .le => f.zf || f.sf != f.of
  | .g => !f.zf && f.sf == f.of

end Sys2Proof.Machine
end

