-- ==== Sys2Proof/Decode.lean ====
section
/-! DEFINITION. Decode: the byte-stream decoder, total on any cells, rejecting by name (30_encoding.md),
and after it the encoder, written from the same tables. The decoder reads CELLS: a fetched byte, or what
the fetch of that byte answered instead; so it meets the first byte that fails in byte order
(60_exceptions.md R406). -/

namespace Sys2Proof

/-! ### Cells and the cursor (R100, R101) -/

/-- Why decoding stops without a unit: a decode fault (R100), or a refusal of the model (R108, R109,
R141; 20_memory.md R75). -/
inductive DecodeStop where
  | fault (k : DecodeFault)
  /-- R109 (the prefix byte) and R141 (the opcode bytes read, with the ModRM byte of a group). -/
  | notAdmitted (bytes : List Byte)
  | multipleSegmentOverride
  | unmodelledMemory
  deriving DecidableEq, Repr

/-- A decode fault as the x86 exception the driver sees: vector and error code (60_exceptions.md R402, R404).
`truncated` is none: it arises only in the queries. -/
def DecodeFault.exception : DecodeFault → Option (Nat × Option Word)
  | .fetchFault v c => some (v, c)
  | .truncated => none
  | .reserved => some (6, none)
  | .tooLong => some (13, some 0)

/-- One position of the cursor's buffer: a byte, or the reason no byte can be had there. -/
inductive Cell where
  | byte (b : Byte)
  | stop (e : DecodeStop)
  deriving DecidableEq, Repr

/-- `peek`: the next byte, without advancing (R101). -/
def peek : List Cell → Except DecodeStop Byte
  | .byte b :: _ => .ok b
  | .stop e :: _ => .error e
  | [] => .error (.fault .truncated)

/-- `readU8`: the byte `peek` shows, and the cursor past it (R101). -/
def take1 (c : List Cell) : Except DecodeStop (Byte × List Cell) := (peek c).map fun b => (b, c.tail)

/-- `readU16`, little-endian (R102). -/
def take2 (c : List Cell) : Except DecodeStop (BitVec 16 × List Cell) := do
  let (b0, c) ← take1 c
  let (b1, c) ← take1 c
  .ok (b1 ++ b0, c)

/-- `readU32`, little-endian (R102). -/
def take4 (c : List Cell) : Except DecodeStop (BitVec 32 × List Cell) := do
  let (h0, c) ← take2 c
  let (h1, c) ← take2 c
  .ok (h1 ++ h0, c)

/-- An `iz`, `relz` or `moffs` field of the given size (R130). -/
def takeZ (z : OpSize) (c : List Cell) : Except DecodeStop (Immz × List Cell) :=
  match z with
  | .w16 => do
    let (v, c) ← take2 c
    .ok (.i16 v, c)
  | .w32 => do
    let (v, c) ← take4 c
    .ok (.i32 v, c)

/-! ### Field numbers -/

/-- The register with index k (10_state.md R31). -/
def Reg.ofIndex (k : BitVec 3) : Reg :=
  match k.toNat with
  | 0 => .eax
  | 1 => .ecx
  | 2 => .edx
  | 3 => .ebx
  | 4 => .esp
  | 5 => .ebp
  | 6 => .esi
  | _ => .edi

/-- The index of a register (10_state.md R31). -/
def Reg.index : Reg → BitVec 3
  | .eax => 0
  | .ecx => 1
  | .edx => 2
  | .ebx => 3
  | .esp => 4
  | .ebp => 5
  | .esi => 6
  | .edi => 7

/-- The row of the 16-bit addressing table (R114). -/
def Base16.ofIndex (k : BitVec 3) : Base16 :=
  match k.toNat with
  | 0 => .bxSi
  | 1 => .bxDi
  | 2 => .bpSi
  | 3 => .bpDi
  | 4 => .si
  | 5 => .di
  | 6 => .bp
  | _ => .bx

/-- The rm value of a 16-bit address expression (R114). -/
def Base16.index : Base16 → BitVec 3
  | .bxSi => 0
  | .bxDi => 1
  | .bpSi => 2
  | .bpDi => 3
  | .si => 4
  | .di => 5
  | .bp => 6
  | .bx => 7

/-- The scale with field ss (R123). -/
def Scale.ofBits (k : BitVec 2) : Scale :=
  match k.toNat with
  | 0 => .x1
  | 1 => .x2
  | 2 => .x4
  | _ => .x8

/-- The ss field of a scale (R123). -/
def Scale.ss : Scale → BitVec 2
  | .x1 => 0
  | .x2 => 1
  | .x4 => 2
  | .x8 => 3

/-- The condition with field cc (R133, 46_control.md R334). -/
def Cond.ofBits (k : Nat) : Cond :=
  match k with
  | 0 => .o
  | 1 => .no
  | 2 => .b
  | 3 => .ae
  | 4 => .e
  | 5 => .ne
  | 6 => .be
  | 7 => .a
  | 8 => .s
  | 9 => .ns
  | 10 => .p
  | 11 => .np
  | 12 => .l
  | 13 => .ge
  | 14 => .le
  | _ => .g

/-- The cc field of a condition (R133). -/
def Cond.bits : Cond → BitVec 4
  | .o => 0
  | .no => 1
  | .b => 2
  | .ae => 3
  | .e => 4
  | .ne => 5
  | .be => 6
  | .a => 7
  | .s => 8
  | .ns => 9
  | .p => 10
  | .np => 11
  | .l => 12
  | .ge => 13
  | .le => 14
  | .g => 15

/-- The segment an override byte names (R107). -/
def SegReg.overrideByte : SegReg → Byte
  | .es => 0x26
  | .cs => 0x2E
  | .ss => 0x36
  | .ds => 0x3E
  | .fs => 0x64
  | .gs => 0x65

/-- The byte of a prefix (R106, R107). -/
def Prefix.byte : Prefix → Byte
  | .opSize => 0x66
  | .addrSize => 0x67
  | .seg s => s.overrideByte

/-- The admitted prefix a byte is, if it is one (R106, R107). -/
def Prefix.ofByte (b : Byte) : Option Prefix :=
  match b.toNat with
  | 0x66 => some .opSize
  | 0x67 => some .addrSize
  | 0x26 => some (.seg .es)
  | 0x2E => some (.seg .cs)
  | 0x36 => some (.seg .ss)
  | 0x3E => some (.seg .ds)
  | 0x64 => some (.seg .fs)
  | 0x65 => some (.seg .gs)
  | _ => none

/-- ModRM `mod`, bits 7:6; also SIB `ss` (R111, R123). -/
def modField (b : Byte) : BitVec 2 := b.extractLsb' 6 2

/-- ModRM `reg`, bits 5:3; also SIB `index` (R111, R123). -/
def regField (b : Byte) : BitVec 3 := b.extractLsb' 3 3

/-- ModRM `rm`, bits 2:0; also SIB `base` and the register of an opcode byte (R111, R123, R131). -/
def rmField (b : Byte) : BitVec 3 := b.extractLsb' 0 3

/-! ### What the prefixes select (R106, R107) -/

/-- The operand size OS (R106): a prefix repeated has the effect of one. -/
def Prefixes.opSize (p : Prefixes) : OpSize :=
  if p.list.contains .opSize then p.dflt.other else p.dflt

/-- The address size AS (R106). -/
def Prefixes.addrSize (p : Prefixes) : OpSize :=
  if p.list.contains .addrSize then p.dflt.other else p.dflt

/-- The first segment override among the prefixes; any other one is equal to it (R107, R108). -/
def segOverride : List Prefix → Option SegReg
  | [] => none
  | .seg s :: _ => some s
  | .opSize :: l => segOverride l
  | .addrSize :: l => segOverride l

/-- The prefix loop (R106 to R110): the prefixes, then the opcode byte, then the rest. `seen` is the
segment override met so far. -/
def readPrefixes (seen : Option SegReg) : List Cell → Except DecodeStop (List Prefix × Byte × List Cell)
  | [] => .error (.fault .truncated)
  | .stop e :: _ => .error e
  | .byte b :: c =>
    match Prefix.ofByte b with
    | some (.seg s) =>
      if seen = none ∨ seen = some s then
        (readPrefixes (some s) c).map fun x => (.seg s :: x.1, x.2)
      else .error .multipleSegmentOverride
    | some .opSize => (readPrefixes seen c).map fun x => (.opSize :: x.1, x.2)
    | some .addrSize => (readPrefixes seen c).map fun x => (.addrSize :: x.1, x.2)
    | none =>
      if b = 0xF0 ∨ b = 0xF2 ∨ b = 0xF3 then .error (.notAdmitted [b]) else .ok ([], b, c)

/-! ### The ModRM operand resolver's byte shape (R111 to R128) -/

/-- The displacement of a 16-bit form (R116). -/
def readDisp16 (md : BitVec 2) (c : List Cell) : Except DecodeStop (Disp16 × List Cell) :=
  match md.toNat with
  | 0 => .ok (.none, c)
  | 1 => do
    let (v, c) ← take1 c
    .ok (.d8 v, c)
  | _ => do
    let (v, c) ← take2 c
    .ok (.d16 v, c)

/-- The displacement of a 32-bit form (R121). -/
def readDisp32 (md : BitVec 2) (c : List Cell) : Except DecodeStop (Disp32 × List Cell) :=
  match md.toNat with
  | 0 => .ok (.none, c)
  | 1 => do
    let (v, c) ← take1 c
    .ok (.d8 v, c)
  | _ => do
    let (v, c) ← take4 c
    .ok (.d32 v, c)

/-- SIB and displacement after a ModRM byte with rm = 4 and AS = 32 (R122 to R124). -/
def readSib (md : BitVec 2) (c : List Cell) : Except DecodeStop (MemForm × List Cell) := do
  let (b, c) ← take1 c
  if md = 0 ∧ rmField b = 5 then
    let (d, c) ← take4 c
    .ok (.sibDirect (Scale.ofBits (modField b)) (Reg.ofIndex (regField b)) d, c)
  else
    let (d, c) ← readDisp32 md c
    .ok (.sib (Scale.ofBits (modField b)) (Reg.ofIndex (regField b)) (Reg.ofIndex (rmField b)) d, c)

/-- The memory form of a ModRM byte with mod in {0, 1, 2} (R114 to R124). -/
def readMem (z : OpSize) (b : Byte) (c : List Cell) : Except DecodeStop (MemForm × List Cell) :=
  match z with
  | .w16 =>
    if modField b = 0 ∧ rmField b = 6 then do
      let (d, c) ← take2 c
      .ok (.direct16 d, c)
    else do
      let (d, c) ← readDisp16 (modField b) c
      .ok (.based16 (Base16.ofIndex (rmField b)) d, c)
  | .w32 =>
    if rmField b = 4 then readSib (modField b) c
    else if modField b = 0 ∧ rmField b = 5 then do
      let (d, c) ← take4 c
      .ok (.direct32 d, c)
    else do
      let (d, c) ← readDisp32 (modField b) c
      .ok (.based32 (Reg.ofIndex (rmField b)) d, c)

/-- The r/m operand of a ModRM byte (R112, R127). -/
def readRm (z : OpSize) (b : Byte) (c : List Cell) : Except DecodeStop (Rm × List Cell) :=
  if modField b = 3 then .ok (.reg (Reg.ofIndex (rmField b)), c)
  else do
    let (m, c) ← readMem z b c
    .ok (.mem m, c)

/-! ### Operand formats (the `format` column of spec/opcode_table.json)

Each format reads the fields after the opcode byte (or after the ModRM byte `b` of a group) and hands
them to the row's constructor `k`. -/

/-- `/r`. -/
def fmtRegRm (p : Prefixes) (k : Reg → Rm → Instr) (c : List Cell) : Except DecodeStop (Instr × List Cell) := do
  let (b, c) ← take1 c
  let (rm, c) ← readRm p.addrSize b c
  .ok (k (Reg.ofIndex (regField b)) rm, c)

/-- `/r ibs` (the immediate byte raw). -/
def fmtRegRmImm8 (p : Prefixes) (k : Reg → Rm → BitVec 8 → Instr) (c : List Cell) : Except DecodeStop (Instr × List Cell) := do
  let (b, c) ← take1 c
  let (rm, c) ← readRm p.addrSize b c
  let (v, c) ← take1 c
  .ok (k (Reg.ofIndex (regField b)) rm v, c)

/-- `/r iz`. -/
def fmtRegRmImmz (p : Prefixes) (k : Reg → Rm → Immz → Instr) (c : List Cell) : Except DecodeStop (Instr × List Cell) := do
  let (b, c) ← take1 c
  let (rm, c) ← readRm p.addrSize b c
  let (v, c) ← takeZ p.opSize c
  .ok (k (Reg.ofIndex (regField b)) rm v, c)

/-- `/r` of LEA: a memory operand only; mod = 3 is Reserved (R129, R142). -/
def fmtLea (p : Prefixes) (k : Reg → MemForm → Instr) (c : List Cell) : Except DecodeStop (Instr × List Cell) := do
  let (b, c) ← take1 c
  if modField b = 3 then .error (.fault .reserved)
  else
    let (m, c) ← readMem p.addrSize b c
    .ok (k (Reg.ofIndex (regField b)) m, c)

/-- `/d` after the ModRM byte `b`. -/
def fmtRm (p : Prefixes) (b : Byte) (k : Rm → Instr) (c : List Cell) : Except DecodeStop (Instr × List Cell) := do
  let (rm, c) ← readRm p.addrSize b c
  .ok (k rm, c)

/-- `/d ib` after the ModRM byte `b`. -/
def fmtRmImm8 (p : Prefixes) (b : Byte) (k : Rm → BitVec 8 → Instr) (c : List Cell) : Except DecodeStop (Instr × List Cell) := do
  let (rm, c) ← readRm p.addrSize b c
  let (v, c) ← take1 c
  .ok (k rm v, c)

/-- `/d iz` after the ModRM byte `b`. -/
def fmtRmImmz (p : Prefixes) (b : Byte) (k : Rm → Immz → Instr) (c : List Cell) : Except DecodeStop (Instr × List Cell) := do
  let (rm, c) ← readRm p.addrSize b c
  let (v, c) ← takeZ p.opSize c
  .ok (k rm v, c)

/-- `ib`, `ibs` and `rel8`. -/
def fmtImm8 (k : BitVec 8 → Instr) (c : List Cell) : Except DecodeStop (Instr × List Cell) := do
  let (v, c) ← take1 c
  .ok (k v, c)

/-- `iw`. -/
def fmtImm16 (k : BitVec 16 → Instr) (c : List Cell) : Except DecodeStop (Instr × List Cell) := do
  let (v, c) ← take2 c
  .ok (k v, c)

/-- `iz` and `relz` (the size is OS), `moffs` (the size is AS) (R130, R132). -/
def fmtImmz (z : OpSize) (k : Immz → Instr) (c : List Cell) : Except DecodeStop (Instr × List Cell) := do
  let (v, c) ← takeZ z c
  .ok (k v, c)

/-- A row with no field after the opcode. -/
def fmtNone (i : Instr) (c : List Cell) : Except DecodeStop (Instr × List Cell) := .ok (i, c)

/-- An encoding outside the admitted subset (R141). -/
def notAdmitted (bytes : List Byte) : Except DecodeStop (Instr × List Cell) := .error (.notAdmitted bytes)

/-- A reserved encoding (R142). -/
def reserved : Except DecodeStop (Instr × List Cell) := .error (.fault .reserved)

/-! ### Groups (R135 to R138, R140) -/

/-- Group 1 with an 8-bit operand, opcodes 80 and 82 (R135). -/
def group80 (p : Prefixes) (al : Opcode80) (c : List Cell) : Except DecodeStop (Instr × List Cell) := do
  let (b, c) ← take1 c
  match (regField b).toNat with
  | 0 => fmtRmImm8 p b (.addRm8Imm8 p al) c
  | 1 => fmtRmImm8 p b (.orRm8Imm8 p al) c
  | 2 => fmtRmImm8 p b (.adcRm8Imm8 p al) c
  | 3 => fmtRmImm8 p b (.sbbRm8Imm8 p al) c
  | 4 => fmtRmImm8 p b (.andRm8Imm8 p al) c
  | 5 => fmtRmImm8 p b (.subRm8Imm8 p al) c
  | 6 => fmtRmImm8 p b (.xorRm8Imm8 p al) c
  | _ => fmtRmImm8 p b (.cmpRm8Imm8 p al) c

/-- Group 1, opcode 81 (R135). -/
def group81 (p : Prefixes) (c : List Cell) : Except DecodeStop (Instr × List Cell) := do
  let (b, c) ← take1 c
  match (regField b).toNat with
  | 0 => fmtRmImmz p b (.addRmvImmz p) c
  | 1 => fmtRmImmz p b (.orRmvImmz p) c
  | 2 => fmtRmImmz p b (.adcRmvImmz p) c
  | 3 => fmtRmImmz p b (.sbbRmvImmz p) c
  | 4 => fmtRmImmz p b (.andRmvImmz p) c
  | 5 => fmtRmImmz p b (.subRmvImmz p) c
  | 6 => fmtRmImmz p b (.xorRmvImmz p) c
  | _ => fmtRmImmz p b (.cmpRmvImmz p) c

/-- Group 1 with a sign-extended byte, opcode 83 (R135). -/
def group83 (p : Prefixes) (c : List Cell) : Except DecodeStop (Instr × List Cell) := do
  let (b, c) ← take1 c
  match (regField b).toNat with
  | 0 => fmtRmImm8 p b (.addRmvImm8 p) c
  | 1 => fmtRmImm8 p b (.orRmvImm8 p) c
  | 2 => fmtRmImm8 p b (.adcRmvImm8 p) c
  | 3 => fmtRmImm8 p b (.sbbRmvImm8 p) c
  | 4 => fmtRmImm8 p b (.andRmvImm8 p) c
  | 5 => fmtRmImm8 p b (.subRmvImm8 p) c
  | 6 => fmtRmImm8 p b (.xorRmvImm8 p) c
  | _ => fmtRmImm8 p b (.cmpRmvImm8 p) c

/-- Group 2, opcode C0; reg = 6 is not admitted (R136). -/
def groupC0 (p : Prefixes) (c : List Cell) : Except DecodeStop (Instr × List Cell) := do
  let (b, c) ← take1 c
  match (regField b).toNat with
  | 0 => fmtRmImm8 p b (.rolRm8Imm8 p) c
  | 1 => fmtRmImm8 p b (.rorRm8Imm8 p) c
  | 2 => fmtRmImm8 p b (.rclRm8Imm8 p) c
  | 3 => fmtRmImm8 p b (.rcrRm8Imm8 p) c
  | 4 => fmtRmImm8 p b (.shlRm8Imm8 p) c
  | 5 => fmtRmImm8 p b (.shrRm8Imm8 p) c
  | 6 => notAdmitted [0xC0, b]
  | _ => fmtRmImm8 p b (.sarRm8Imm8 p) c

/-- Group 2, opcode C1; reg = 6 is not admitted (R136). -/
def groupC1 (p : Prefixes) (c : List Cell) : Except DecodeStop (Instr × List Cell) := do
  let (b, c) ← take1 c
  match (regField b).toNat with
  | 0 => fmtRmImm8 p b (.rolRmvImm8 p) c
  | 1 => fmtRmImm8 p b (.rorRmvImm8 p) c
  | 2 => fmtRmImm8 p b (.rclRmvImm8 p) c
  | 3 => fmtRmImm8 p b (.rcrRmvImm8 p) c
  | 4 => fmtRmImm8 p b (.shlRmvImm8 p) c
  | 5 => fmtRmImm8 p b (.shrRmvImm8 p) c
  | 6 => notAdmitted [0xC1, b]
  | _ => fmtRmImm8 p b (.sarRmvImm8 p) c

/-- Group 2, opcode D0; reg = 6 is not admitted (R136). -/
def groupD0 (p : Prefixes) (c : List Cell) : Except DecodeStop (Instr × List Cell) := do
  let (b, c) ← take1 c
  match (regField b).toNat with
  | 0 => fmtRm p b (.rolRm8One p) c
  | 1 => fmtRm p b (.rorRm8One p) c
  | 2 => fmtRm p b (.rclRm8One p) c
  | 3 => fmtRm p b (.rcrRm8One p) c
  | 4 => fmtRm p b (.shlRm8One p) c
  | 5 => fmtRm p b (.shrRm8One p) c
  | 6 => notAdmitted [0xD0, b]
  | _ => fmtRm p b (.sarRm8One p) c

/-- Group 2, opcode D1; reg = 6 is not admitted (R136). -/
def groupD1 (p : Prefixes) (c : List Cell) : Except DecodeStop (Instr × List Cell) := do
  let (b, c) ← take1 c
  match (regField b).toNat with
  | 0 => fmtRm p b (.rolRmvOne p) c
  | 1 => fmtRm p b (.rorRmvOne p) c
  | 2 => fmtRm p b (.rclRmvOne p) c
  | 3 => fmtRm p b (.rcrRmvOne p) c
  | 4 => fmtRm p b (.shlRmvOne p) c
  | 5 => fmtRm p b (.shrRmvOne p) c
  | 6 => notAdmitted [0xD1, b]
  | _ => fmtRm p b (.sarRmvOne p) c

/-- Group 2, opcode D2; reg = 6 is not admitted (R136). -/
def groupD2 (p : Prefixes) (c : List Cell) : Except DecodeStop (Instr × List Cell) := do
  let (b, c) ← take1 c
  match (regField b).toNat with
  | 0 => fmtRm p b (.rolRm8Cl p) c
  | 1 => fmtRm p b (.rorRm8Cl p) c
  | 2 => fmtRm p b (.rclRm8Cl p) c
  | 3 => fmtRm p b (.rcrRm8Cl p) c
  | 4 => fmtRm p b (.shlRm8Cl p) c
  | 5 => fmtRm p b (.shrRm8Cl p) c
  | 6 => notAdmitted [0xD2, b]
  | _ => fmtRm p b (.sarRm8Cl p) c

/-- Group 2, opcode D3; reg = 6 is not admitted (R136). -/
def groupD3 (p : Prefixes) (c : List Cell) : Except DecodeStop (Instr × List Cell) := do
  let (b, c) ← take1 c
  match (regField b).toNat with
  | 0 => fmtRm p b (.rolRmvCl p) c
  | 1 => fmtRm p b (.rorRmvCl p) c
  | 2 => fmtRm p b (.rclRmvCl p) c
  | 3 => fmtRm p b (.rcrRmvCl p) c
  | 4 => fmtRm p b (.shlRmvCl p) c
  | 5 => fmtRm p b (.shrRmvCl p) c
  | 6 => notAdmitted [0xD3, b]
  | _ => fmtRm p b (.sarRmvCl p) c

/-- Group 3, opcode F6; reg = 1 is not admitted (R137). -/
def groupF6 (p : Prefixes) (c : List Cell) : Except DecodeStop (Instr × List Cell) := do
  let (b, c) ← take1 c
  match (regField b).toNat with
  | 0 => fmtRmImm8 p b (.testRm8Imm8 p) c
  | 1 => notAdmitted [0xF6, b]
  | 2 => fmtRm p b (.notRm8 p) c
  | 3 => fmtRm p b (.negRm8 p) c
  | 4 => fmtRm p b (.mulRm8 p) c
  | 5 => fmtRm p b (.imulRm8 p) c
  | 6 => fmtRm p b (.divRm8 p) c
  | _ => fmtRm p b (.idivRm8 p) c

/-- Group 3, opcode F7; reg = 1 is not admitted (R137). -/
def groupF7 (p : Prefixes) (c : List Cell) : Except DecodeStop (Instr × List Cell) := do
  let (b, c) ← take1 c
  match (regField b).toNat with
  | 0 => fmtRmImmz p b (.testRmvImmz p) c
  | 1 => notAdmitted [0xF7, b]
  | 2 => fmtRm p b (.notRmv p) c
  | 3 => fmtRm p b (.negRmv p) c
  | 4 => fmtRm p b (.mulRmv p) c
  | 5 => fmtRm p b (.imulRmv p) c
  | 6 => fmtRm p b (.divRmv p) c
  | _ => fmtRm p b (.idivRmv p) c

/-- Group 4, opcode FE; reg = 2..7 is Reserved (R138). -/
def groupFE (p : Prefixes) (c : List Cell) : Except DecodeStop (Instr × List Cell) := do
  let (b, c) ← take1 c
  match (regField b).toNat with
  | 0 => fmtRm p b (.incRm8 p) c
  | 1 => fmtRm p b (.decRm8 p) c
  | _ => reserved

/-- Group 5, opcode FF; reg = 3 and 5 are not admitted, reg = 7 is Reserved (R138). -/
def groupFF (p : Prefixes) (c : List Cell) : Except DecodeStop (Instr × List Cell) := do
  let (b, c) ← take1 c
  match (regField b).toNat with
  | 0 => fmtRm p b (.incRmv p) c
  | 1 => fmtRm p b (.decRmv p) c
  | 2 => fmtRm p b (.callRmv p) c
  | 3 => notAdmitted [0xFF, b]
  | 4 => fmtRm p b (.jmpRmv p) c
  | 5 => notAdmitted [0xFF, b]
  | 6 => fmtRm p b (.pushRmv p) c
  | _ => reserved

/-- Opcode C6: reg = 0 only, the others are Reserved (R140). -/
def groupC6 (p : Prefixes) (c : List Cell) : Except DecodeStop (Instr × List Cell) := do
  let (b, c) ← take1 c
  match (regField b).toNat with
  | 0 => fmtRmImm8 p b (.movRm8Imm8 p) c
  | _ => reserved

/-- Opcode C7: reg = 0 only, the others are Reserved (R140). -/
def groupC7 (p : Prefixes) (c : List Cell) : Except DecodeStop (Instr × List Cell) := do
  let (b, c) ← take1 c
  match (regField b).toNat with
  | 0 => fmtRmImmz p b (.movRmvImmz p) c
  | _ => reserved

/-- SETcc: the reg field is ignored, and kept as it stood (R140). -/
def fmtSetcc (p : Prefixes) (cc : Cond) (c : List Cell) : Except DecodeStop (Instr × List Cell) := do
  let (b, c) ← take1 c
  let (rm, c) ← readRm p.addrSize b c
  .ok (.setccRm8 p cc (regField b) rm, c)

/-! ### The one-byte map (R134), by high nibble of the opcode; `n` is the low nibble -/

/-- Opcodes 00 to 0F. -/
def map0 (p : Prefixes) (n : Nat) (c : List Cell) : Except DecodeStop (Instr × List Cell) :=
  match n with
  | 0 => fmtRegRm p (.addRm8R8 p) c
  | 1 => fmtRegRm p (.addRmvRv p) c
  | 2 => fmtRegRm p (.addR8Rm8 p) c
  | 3 => fmtRegRm p (.addRvRmv p) c
  | 4 => fmtImm8 (.addAlImm8 p) c
  | 5 => fmtImmz p.opSize (.addEaxImmz p) c
  | 8 => fmtRegRm p (.orRm8R8 p) c
  | 9 => fmtRegRm p (.orRmvRv p) c
  | 10 => fmtRegRm p (.orR8Rm8 p) c
  | 11 => fmtRegRm p (.orRvRmv p) c
  | 12 => fmtImm8 (.orAlImm8 p) c
  | 13 => fmtImmz p.opSize (.orEaxImmz p) c
  | _ => notAdmitted [BitVec.ofNat 8 (0 + n)]

/-- Opcodes 10 to 1F. -/
def map1 (p : Prefixes) (n : Nat) (c : List Cell) : Except DecodeStop (Instr × List Cell) :=
  match n with
  | 0 => fmtRegRm p (.adcRm8R8 p) c
  | 1 => fmtRegRm p (.adcRmvRv p) c
  | 2 => fmtRegRm p (.adcR8Rm8 p) c
  | 3 => fmtRegRm p (.adcRvRmv p) c
  | 4 => fmtImm8 (.adcAlImm8 p) c
  | 5 => fmtImmz p.opSize (.adcEaxImmz p) c
  | 8 => fmtRegRm p (.sbbRm8R8 p) c
  | 9 => fmtRegRm p (.sbbRmvRv p) c
  | 10 => fmtRegRm p (.sbbR8Rm8 p) c
  | 11 => fmtRegRm p (.sbbRvRmv p) c
  | 12 => fmtImm8 (.sbbAlImm8 p) c
  | 13 => fmtImmz p.opSize (.sbbEaxImmz p) c
  | _ => notAdmitted [BitVec.ofNat 8 (16 + n)]

/-- Opcodes 20 to 2F. -/
def map2 (p : Prefixes) (n : Nat) (c : List Cell) : Except DecodeStop (Instr × List Cell) :=
  match n with
  | 0 => fmtRegRm p (.andRm8R8 p) c
  | 1 => fmtRegRm p (.andRmvRv p) c
  | 2 => fmtRegRm p (.andR8Rm8 p) c
  | 3 => fmtRegRm p (.andRvRmv p) c
  | 4 => fmtImm8 (.andAlImm8 p) c
  | 5 => fmtImmz p.opSize (.andEaxImmz p) c
  | 8 => fmtRegRm p (.subRm8R8 p) c
  | 9 => fmtRegRm p (.subRmvRv p) c
  | 10 => fmtRegRm p (.subR8Rm8 p) c
  | 11 => fmtRegRm p (.subRvRmv p) c
  | 12 => fmtImm8 (.subAlImm8 p) c
  | 13 => fmtImmz p.opSize (.subEaxImmz p) c
  | _ => notAdmitted [BitVec.ofNat 8 (32 + n)]

/-- Opcodes 30 to 3F. -/
def map3 (p : Prefixes) (n : Nat) (c : List Cell) : Except DecodeStop (Instr × List Cell) :=
  match n with
  | 0 => fmtRegRm p (.xorRm8R8 p) c
  | 1 => fmtRegRm p (.xorRmvRv p) c
  | 2 => fmtRegRm p (.xorR8Rm8 p) c
  | 3 => fmtRegRm p (.xorRvRmv p) c
  | 4 => fmtImm8 (.xorAlImm8 p) c
  | 5 => fmtImmz p.opSize (.xorEaxImmz p) c
  | 8 => fmtRegRm p (.cmpRm8R8 p) c
  | 9 => fmtRegRm p (.cmpRmvRv p) c
  | 10 => fmtRegRm p (.cmpR8Rm8 p) c
  | 11 => fmtRegRm p (.cmpRvRmv p) c
  | 12 => fmtImm8 (.cmpAlImm8 p) c
  | 13 => fmtImmz p.opSize (.cmpEaxImmz p) c
  | _ => notAdmitted [BitVec.ofNat 8 (48 + n)]

/-- Opcodes 40 to 4F. -/
def map4 (p : Prefixes) (n : Nat) (c : List Cell) : Except DecodeStop (Instr × List Cell) :=
  match n with
  | 0 => fmtNone (.incRv p .eax) c
  | 1 => fmtNone (.incRv p .ecx) c
  | 2 => fmtNone (.incRv p .edx) c
  | 3 => fmtNone (.incRv p .ebx) c
  | 4 => fmtNone (.incRv p .esp) c
  | 5 => fmtNone (.incRv p .ebp) c
  | 6 => fmtNone (.incRv p .esi) c
  | 7 => fmtNone (.incRv p .edi) c
  | 8 => fmtNone (.decRv p .eax) c
  | 9 => fmtNone (.decRv p .ecx) c
  | 10 => fmtNone (.decRv p .edx) c
  | 11 => fmtNone (.decRv p .ebx) c
  | 12 => fmtNone (.decRv p .esp) c
  | 13 => fmtNone (.decRv p .ebp) c
  | 14 => fmtNone (.decRv p .esi) c
  | _ => fmtNone (.decRv p .edi) c

/-- Opcodes 50 to 5F. -/
def map5 (p : Prefixes) (n : Nat) (c : List Cell) : Except DecodeStop (Instr × List Cell) :=
  match n with
  | 0 => fmtNone (.pushRv p .eax) c
  | 1 => fmtNone (.pushRv p .ecx) c
  | 2 => fmtNone (.pushRv p .edx) c
  | 3 => fmtNone (.pushRv p .ebx) c
  | 4 => fmtNone (.pushRv p .esp) c
  | 5 => fmtNone (.pushRv p .ebp) c
  | 6 => fmtNone (.pushRv p .esi) c
  | 7 => fmtNone (.pushRv p .edi) c
  | 8 => fmtNone (.popRv p .eax) c
  | 9 => fmtNone (.popRv p .ecx) c
  | 10 => fmtNone (.popRv p .edx) c
  | 11 => fmtNone (.popRv p .ebx) c
  | 12 => fmtNone (.popRv p .esp) c
  | 13 => fmtNone (.popRv p .ebp) c
  | 14 => fmtNone (.popRv p .esi) c
  | _ => fmtNone (.popRv p .edi) c

/-- Opcodes 60 to 6F. -/
def map6 (p : Prefixes) (n : Nat) (c : List Cell) : Except DecodeStop (Instr × List Cell) :=
  match n with
  | 8 => fmtImmz p.opSize (.pushImmz p) c
  | 9 => fmtRegRmImmz p (.imulRvRmvImmz p) c
  | 10 => fmtImm8 (.pushImm8 p) c
  | 11 => fmtRegRmImm8 p (.imulRvRmvImm8 p) c
  | _ => notAdmitted [BitVec.ofNat 8 (96 + n)]

/-- Opcodes 70 to 7F: Jcc rel8, cc = the low nibble (R133). -/
def map7 (p : Prefixes) (n : Nat) (c : List Cell) : Except DecodeStop (Instr × List Cell) :=
  fmtImm8 (.jccRel8 p (Cond.ofBits n)) c

/-- Opcodes 80 to 8F. -/
def map8 (p : Prefixes) (n : Nat) (c : List Cell) : Except DecodeStop (Instr × List Cell) :=
  match n with
  | 0 => group80 p .op80 c
  | 1 => group81 p c
  | 2 => group80 p .op82 c
  | 3 => group83 p c
  | 4 => fmtRegRm p (.testRm8R8 p) c
  | 5 => fmtRegRm p (.testRmvRv p) c
  | 6 => fmtRegRm p (.xchgRm8R8 p) c
  | 7 => fmtRegRm p (.xchgRmvRv p) c
  | 8 => fmtRegRm p (.movRm8R8 p) c
  | 9 => fmtRegRm p (.movRmvRv p) c
  | 10 => fmtRegRm p (.movR8Rm8 p) c
  | 11 => fmtRegRm p (.movRvRmv p) c
  | 13 => fmtLea p (.leaRvM p) c
  | _ => notAdmitted [BitVec.ofNat 8 (128 + n)]

/-- Opcodes 90 to 9F. -/
def map9 (p : Prefixes) (n : Nat) (c : List Cell) : Except DecodeStop (Instr × List Cell) :=
  match n with
  | 0 => fmtNone (.nop p) c
  | 1 => fmtNone (.xchgEaxEcx p) c
  | 2 => fmtNone (.xchgEaxEdx p) c
  | 3 => fmtNone (.xchgEaxEbx p) c
  | 4 => fmtNone (.xchgEaxEsp p) c
  | 5 => fmtNone (.xchgEaxEbp p) c
  | 6 => fmtNone (.xchgEaxEsi p) c
  | 7 => fmtNone (.xchgEaxEdi p) c
  | 8 => fmtNone (.cbwCwde p) c
  | 9 => fmtNone (.cwdCdq p) c
  | _ => notAdmitted [BitVec.ofNat 8 (144 + n)]

/-- Opcodes A0 to AF. -/
def mapA (p : Prefixes) (n : Nat) (c : List Cell) : Except DecodeStop (Instr × List Cell) :=
  match n with
  | 0 => fmtImmz p.addrSize (.movAlMoffs8 p) c
  | 1 => fmtImmz p.addrSize (.movEaxMoffsv p) c
  | 2 => fmtImmz p.addrSize (.movMoffs8Al p) c
  | 3 => fmtImmz p.addrSize (.movMoffsvEax p) c
  | 8 => fmtImm8 (.testAlImm8 p) c
  | 9 => fmtImmz p.opSize (.testEaxImmz p) c
  | _ => notAdmitted [BitVec.ofNat 8 (160 + n)]

/-- Opcodes B0 to BF. -/
def mapB (p : Prefixes) (n : Nat) (c : List Cell) : Except DecodeStop (Instr × List Cell) :=
  match n with
  | 0 => fmtImm8 (.movR8Imm8 p .eax) c
  | 1 => fmtImm8 (.movR8Imm8 p .ecx) c
  | 2 => fmtImm8 (.movR8Imm8 p .edx) c
  | 3 => fmtImm8 (.movR8Imm8 p .ebx) c
  | 4 => fmtImm8 (.movR8Imm8 p .esp) c
  | 5 => fmtImm8 (.movR8Imm8 p .ebp) c
  | 6 => fmtImm8 (.movR8Imm8 p .esi) c
  | 7 => fmtImm8 (.movR8Imm8 p .edi) c
  | 8 => fmtImmz p.opSize (.movRvImmz p .eax) c
  | 9 => fmtImmz p.opSize (.movRvImmz p .ecx) c
  | 10 => fmtImmz p.opSize (.movRvImmz p .edx) c
  | 11 => fmtImmz p.opSize (.movRvImmz p .ebx) c
  | 12 => fmtImmz p.opSize (.movRvImmz p .esp) c
  | 13 => fmtImmz p.opSize (.movRvImmz p .ebp) c
  | 14 => fmtImmz p.opSize (.movRvImmz p .esi) c
  | _ => fmtImmz p.opSize (.movRvImmz p .edi) c

/-- Opcodes C0 to CF. -/
def mapC (p : Prefixes) (n : Nat) (c : List Cell) : Except DecodeStop (Instr × List Cell) :=
  match n with
  | 0 => groupC0 p c
  | 1 => groupC1 p c
  | 2 => fmtImm16 (.retImm16 p) c
  | 3 => fmtNone (.ret p) c
  | 6 => groupC6 p c
  | 7 => groupC7 p c
  | _ => notAdmitted [BitVec.ofNat 8 (192 + n)]

/-- Opcodes D0 to DF. -/
def mapD (p : Prefixes) (n : Nat) (c : List Cell) : Except DecodeStop (Instr × List Cell) :=
  match n with
  | 0 => groupD0 p c
  | 1 => groupD1 p c
  | 2 => groupD2 p c
  | 3 => groupD3 p c
  | _ => notAdmitted [BitVec.ofNat 8 (208 + n)]

/-- Opcodes E0 to EF. -/
def mapE (p : Prefixes) (n : Nat) (c : List Cell) : Except DecodeStop (Instr × List Cell) :=
  match n with
  | 8 => fmtImmz p.opSize (.callRelz p) c
  | 9 => fmtImmz p.opSize (.jmpRelz p) c
  | 11 => fmtImm8 (.jmpRel8 p) c
  | _ => notAdmitted [BitVec.ofNat 8 (224 + n)]

/-- Opcodes F0 to FF. -/
def mapF (p : Prefixes) (n : Nat) (c : List Cell) : Except DecodeStop (Instr × List Cell) :=
  match n with
  | 4 => fmtNone (.hlt p) c
  | 5 => fmtNone (.cmc p) c
  | 6 => groupF6 p c
  | 7 => groupF7 p c
  | 8 => fmtNone (.clc p) c
  | 9 => fmtNone (.stc p) c
  | 14 => groupFE p c
  | 15 => groupFF p c
  | _ => notAdmitted [BitVec.ofNat 8 (240 + n)]

/-- The one-byte map (R134); 0x0F is the escape to the two-byte map (R110) and never comes here. -/
def mapOne (p : Prefixes) (op : Byte) (c : List Cell) : Except DecodeStop (Instr × List Cell) :=
  match op.toNat / 16 with
  | 0 => map0 p (op.toNat % 16) c
  | 1 => map1 p (op.toNat % 16) c
  | 2 => map2 p (op.toNat % 16) c
  | 3 => map3 p (op.toNat % 16) c
  | 4 => map4 p (op.toNat % 16) c
  | 5 => map5 p (op.toNat % 16) c
  | 6 => map6 p (op.toNat % 16) c
  | 7 => map7 p (op.toNat % 16) c
  | 8 => map8 p (op.toNat % 16) c
  | 9 => map9 p (op.toNat % 16) c
  | 10 => mapA p (op.toNat % 16) c
  | 11 => mapB p (op.toNat % 16) c
  | 12 => mapC p (op.toNat % 16) c
  | 13 => mapD p (op.toNat % 16) c
  | 14 => mapE p (op.toNat % 16) c
  | 15 => mapF p (op.toNat % 16) c
  | _ => notAdmitted [op]

/-- The two-byte map (R139), `op` the second opcode byte. UD2 is decoded as its row; that it is
Reserved is said where a unit is made of it (Machine/Block.lean; notes/assumptions/10.md). -/
def mapTwo (p : Prefixes) (op : Byte) (c : List Cell) : Except DecodeStop (Instr × List Cell) :=
  match op.toNat / 16 with
  | 8 => fmtImmz p.opSize (.jccRelz p (Cond.ofBits (op.toNat % 16))) c
  | 9 => fmtSetcc p (Cond.ofBits (op.toNat % 16)) c
  | _ =>
    match op.toNat with
    | 0x0B => fmtNone (.ud2 p) c
    | 0xAF => fmtRegRm p (.imulRvRmv p) c
    | 0xB6 => fmtRegRm p (.movzxRvRm8 p) c
    | 0xB7 => fmtRegRm p (.movzxRvRm16 p) c
    | 0xBE => fmtRegRm p (.movsxRvRm8 p) c
    | 0xBF => fmtRegRm p (.movsxRvRm16 p) c
    | _ => notAdmitted [0x0F, op]

/-- The opcode byte, or the escape and the second byte (R110). -/
def decodeOpcode (p : Prefixes) (op : Byte) (c : List Cell) : Except DecodeStop (Instr × List Cell) :=
  if op = 0x0F then do
    let (op2, c) ← take1 c
    mapTwo p op2 c
  else mapOne p op c

/-- Decode one instruction from the start of the cells under the default size `dflt` (R100, R144). -/
def decodeCells (dflt : OpSize) (c : List Cell) : Except DecodeStop (Instr × List Cell) := do
  let (l, op, c) ← readPrefixes none c
  decodeOpcode ⟨dflt, l⟩ op c

/-- The cells of a byte string (R101): at most 15 bytes, then `TooLong` if the string goes on
(R104), else `Truncated`. -/
def bufferCells (bytes : List Byte) : List Cell :=
  (bytes.take maxInsnLen).map .byte ++
    [.stop (.fault (if maxInsnLen ≤ bytes.length then .tooLong else .truncated))]

/-- Decode one instruction from the start of a byte string. -/
def decode (dflt : OpSize) (bytes : List Byte) : Except DecodeStop Instr :=
  (decodeCells dflt (bufferCells bytes)).map Prod.fst

/-- The bytes of an instruction whose bits are `w`, bit 0 the least significant bit of the first byte;
every bit from `nbits` on is 0 (15 bytes, the longest instruction). -/
def tableBytes (nbits w : Nat) : List Byte :=
  (List.range maxInsnLen).map fun k => BitVec.ofNat 8 ((w % 2 ^ nbits) >>> (8 * k))

/-- The instruction the decoder reads from a word of spec/opcode_table.json, under the default size 16
of the reset state (10_state.md R49, R60). DESIGN CHOICE, safe: notes/assumptions/13.md. -/
def decodeTableWord (nbits w : Nat) : Option Instr :=
  match decode .w16 (tableBytes nbits w) with
  | .ok i => some i
  | .error _ => none

/-! ### The encoder -/

/-- The bytes of a 16-bit field, low byte first (R102). -/
def bytes2 (v : BitVec 16) : List Byte := [v.extractLsb' 0 8, v.extractLsb' 8 8]

/-- The bytes of a 32-bit field, low byte first (R102). -/
def bytes4 (v : BitVec 32) : List Byte := bytes2 (v.extractLsb' 0 16) ++ bytes2 (v.extractLsb' 16 16)

/-- The bytes of an `iz`, `relz` or `moffs` field (R130). -/
def Immz.bytes : Immz → List Byte
  | .i16 v => bytes2 v
  | .i32 v => bytes4 v

/-- A ModRM or SIB byte from its three fields (R111, R123). -/
def packByte (hi : BitVec 2) (mid lo : BitVec 3) : Byte := hi ++ mid ++ lo

/-- mod and displacement bytes of a 16-bit form (R116). -/
def Disp16.mod : Disp16 → BitVec 2
  | .none => 0
  | .d8 _ => 1
  | .d16 _ => 2

/-- The displacement bytes of a 16-bit form (R116). -/
def Disp16.bytes : Disp16 → List Byte
  | .none => []
  | .d8 v => [v]
  | .d16 v => bytes2 v

/-- mod of a 32-bit form (R121). -/
def Disp32.mod : Disp32 → BitVec 2
  | .none => 0
  | .d8 _ => 1
  | .d32 _ => 2

/-- The displacement bytes of a 32-bit form (R121). -/
def Disp32.bytes : Disp32 → List Byte
  | .none => []
  | .d8 v => [v]
  | .d32 v => bytes4 v

/-- The mod field of a memory form. -/
def MemForm.mod : MemForm → BitVec 2
  | .based16 _ d => d.mod
  | .direct16 _ => 0
  | .based32 _ d => d.mod
  | .direct32 _ => 0
  | .sib _ _ _ d => d.mod
  | .sibDirect _ _ _ => 0

/-- The rm field of a memory form (R114, R115, R119, R120, R122). -/
def MemForm.rm : MemForm → BitVec 3
  | .based16 b _ => b.index
  | .direct16 _ => 6
  | .based32 b _ => b.index
  | .direct32 _ => 5
  | .sib _ _ _ _ => 4
  | .sibDirect _ _ _ => 4

/-- The bytes after the ModRM byte: SIB and displacement (R123, R124). -/
def MemForm.tail : MemForm → List Byte
  | .based16 _ d => d.bytes
  | .direct16 d => bytes2 d
  | .based32 _ d => d.bytes
  | .direct32 d => bytes4 d
  | .sib sc ix b d => packByte sc.ss ix.index b.index :: d.bytes
  | .sibDirect sc ix d => packByte sc.ss ix.index 5 :: bytes4 d

/-- The mod field of an r/m operand (R112). -/
def Rm.mod : Rm → BitVec 2
  | .reg _ => 3
  | .mem m => m.mod

/-- The rm field of an r/m operand. -/
def Rm.rm : Rm → BitVec 3
  | .reg r => r.index
  | .mem m => m.rm

/-- The bytes after the ModRM byte. -/
def Rm.tail : Rm → List Byte
  | .reg _ => []
  | .mem m => m.tail

/-- The immediate field of an instruction, as it stands in the byte stream (R130). -/
inductive ImmField where
  | none
  | b (v : BitVec 8)
  | w (v : BitVec 16)
  /-- `iz` and `relz`: the size is OS. -/
  | z (v : Immz)
  /-- `moffs`: the size is AS. -/
  | m (v : Immz)
  deriving DecidableEq, Repr

/-- The layout of one instruction (R105): prefixes, opcode, ModRM reg field and r/m operand, immediate. -/
structure Layout where
  pfx : Prefixes
  /-- True for the two-byte map: 0x0F stands before the opcode byte (R110). -/
  two : Bool
  op : Byte
  modrm : Option (BitVec 3 × Rm)
  imm : ImmField
  deriving DecidableEq, Repr

/-- An opcode byte with a register in its low three bits (R131). -/
def opReg (op : Byte) (r : Reg) : Byte := op ||| r.index.setWidth 8

/-- An opcode byte with a condition in its low four bits (R133). -/
def opCond (op : Byte) (cc : Cond) : Byte := op ||| cc.bits.setWidth 8

/-- Opcode 80 or 82. -/
def Opcode80.byte : Opcode80 → Byte
  | .op80 => 0x80
  | .op82 => 0x82

/-- The layout of every instruction, row by row of the maps (R134 to R140). -/
def Instr.layout : Instr → Layout
  | .addRm8R8 p reg rm => ⟨p, false, 0x00, (some (reg.index, rm)), .none⟩
  | .addRmvRv p reg rm => ⟨p, false, 0x01, (some (reg.index, rm)), .none⟩
  | .addR8Rm8 p reg rm => ⟨p, false, 0x02, (some (reg.index, rm)), .none⟩
  | .addRvRmv p reg rm => ⟨p, false, 0x03, (some (reg.index, rm)), .none⟩
  | .addAlImm8 p imm => ⟨p, false, 0x04, none, (.b imm)⟩
  | .addEaxImmz p imm => ⟨p, false, 0x05, none, (.z imm)⟩
  | .orRm8R8 p reg rm => ⟨p, false, 0x08, (some (reg.index, rm)), .none⟩
  | .orRmvRv p reg rm => ⟨p, false, 0x09, (some (reg.index, rm)), .none⟩
  | .orR8Rm8 p reg rm => ⟨p, false, 0x0A, (some (reg.index, rm)), .none⟩
  | .orRvRmv p reg rm => ⟨p, false, 0x0B, (some (reg.index, rm)), .none⟩
  | .orAlImm8 p imm => ⟨p, false, 0x0C, none, (.b imm)⟩
  | .orEaxImmz p imm => ⟨p, false, 0x0D, none, (.z imm)⟩
  | .adcRm8R8 p reg rm => ⟨p, false, 0x10, (some (reg.index, rm)), .none⟩
  | .adcRmvRv p reg rm => ⟨p, false, 0x11, (some (reg.index, rm)), .none⟩
  | .adcR8Rm8 p reg rm => ⟨p, false, 0x12, (some (reg.index, rm)), .none⟩
  | .adcRvRmv p reg rm => ⟨p, false, 0x13, (some (reg.index, rm)), .none⟩
  | .adcAlImm8 p imm => ⟨p, false, 0x14, none, (.b imm)⟩
  | .adcEaxImmz p imm => ⟨p, false, 0x15, none, (.z imm)⟩
  | .sbbRm8R8 p reg rm => ⟨p, false, 0x18, (some (reg.index, rm)), .none⟩
  | .sbbRmvRv p reg rm => ⟨p, false, 0x19, (some (reg.index, rm)), .none⟩
  | .sbbR8Rm8 p reg rm => ⟨p, false, 0x1A, (some (reg.index, rm)), .none⟩
  | .sbbRvRmv p reg rm => ⟨p, false, 0x1B, (some (reg.index, rm)), .none⟩
  | .sbbAlImm8 p imm => ⟨p, false, 0x1C, none, (.b imm)⟩
  | .sbbEaxImmz p imm => ⟨p, false, 0x1D, none, (.z imm)⟩
  | .andRm8R8 p reg rm => ⟨p, false, 0x20, (some (reg.index, rm)), .none⟩
  | .andRmvRv p reg rm => ⟨p, false, 0x21, (some (reg.index, rm)), .none⟩
  | .andR8Rm8 p reg rm => ⟨p, false, 0x22, (some (reg.index, rm)), .none⟩
  | .andRvRmv p reg rm => ⟨p, false, 0x23, (some (reg.index, rm)), .none⟩
  | .andAlImm8 p imm => ⟨p, false, 0x24, none, (.b imm)⟩
  | .andEaxImmz p imm => ⟨p, false, 0x25, none, (.z imm)⟩
  | .subRm8R8 p reg rm => ⟨p, false, 0x28, (some (reg.index, rm)), .none⟩
  | .subRmvRv p reg rm => ⟨p, false, 0x29, (some (reg.index, rm)), .none⟩
  | .subR8Rm8 p reg rm => ⟨p, false, 0x2A, (some (reg.index, rm)), .none⟩
  | .subRvRmv p reg rm => ⟨p, false, 0x2B, (some (reg.index, rm)), .none⟩
  | .subAlImm8 p imm => ⟨p, false, 0x2C, none, (.b imm)⟩
  | .subEaxImmz p imm => ⟨p, false, 0x2D, none, (.z imm)⟩
  | .xorRm8R8 p reg rm => ⟨p, false, 0x30, (some (reg.index, rm)), .none⟩
  | .xorRmvRv p reg rm => ⟨p, false, 0x31, (some (reg.index, rm)), .none⟩
  | .xorR8Rm8 p reg rm => ⟨p, false, 0x32, (some (reg.index, rm)), .none⟩
  | .xorRvRmv p reg rm => ⟨p, false, 0x33, (some (reg.index, rm)), .none⟩
  | .xorAlImm8 p imm => ⟨p, false, 0x34, none, (.b imm)⟩
  | .xorEaxImmz p imm => ⟨p, false, 0x35, none, (.z imm)⟩
  | .cmpRm8R8 p reg rm => ⟨p, false, 0x38, (some (reg.index, rm)), .none⟩
  | .cmpRmvRv p reg rm => ⟨p, false, 0x39, (some (reg.index, rm)), .none⟩
  | .cmpR8Rm8 p reg rm => ⟨p, false, 0x3A, (some (reg.index, rm)), .none⟩
  | .cmpRvRmv p reg rm => ⟨p, false, 0x3B, (some (reg.index, rm)), .none⟩
  | .cmpAlImm8 p imm => ⟨p, false, 0x3C, none, (.b imm)⟩
  | .cmpEaxImmz p imm => ⟨p, false, 0x3D, none, (.z imm)⟩
  | .addRm8Imm8 p al rm imm => ⟨p, false, al.byte, (some (0, rm)), (.b imm)⟩
  | .addRmvImmz p rm imm => ⟨p, false, 0x81, (some (0, rm)), (.z imm)⟩
  | .addRmvImm8 p rm imm => ⟨p, false, 0x83, (some (0, rm)), (.b imm)⟩
  | .orRm8Imm8 p al rm imm => ⟨p, false, al.byte, (some (1, rm)), (.b imm)⟩
  | .orRmvImmz p rm imm => ⟨p, false, 0x81, (some (1, rm)), (.z imm)⟩
  | .orRmvImm8 p rm imm => ⟨p, false, 0x83, (some (1, rm)), (.b imm)⟩
  | .adcRm8Imm8 p al rm imm => ⟨p, false, al.byte, (some (2, rm)), (.b imm)⟩
  | .adcRmvImmz p rm imm => ⟨p, false, 0x81, (some (2, rm)), (.z imm)⟩
  | .adcRmvImm8 p rm imm => ⟨p, false, 0x83, (some (2, rm)), (.b imm)⟩
  | .sbbRm8Imm8 p al rm imm => ⟨p, false, al.byte, (some (3, rm)), (.b imm)⟩
  | .sbbRmvImmz p rm imm => ⟨p, false, 0x81, (some (3, rm)), (.z imm)⟩
  | .sbbRmvImm8 p rm imm => ⟨p, false, 0x83, (some (3, rm)), (.b imm)⟩
  | .andRm8Imm8 p al rm imm => ⟨p, false, al.byte, (some (4, rm)), (.b imm)⟩
  | .andRmvImmz p rm imm => ⟨p, false, 0x81, (some (4, rm)), (.z imm)⟩
  | .andRmvImm8 p rm imm => ⟨p, false, 0x83, (some (4, rm)), (.b imm)⟩
  | .subRm8Imm8 p al rm imm => ⟨p, false, al.byte, (some (5, rm)), (.b imm)⟩
  | .subRmvImmz p rm imm => ⟨p, false, 0x81, (some (5, rm)), (.z imm)⟩
  | .subRmvImm8 p rm imm => ⟨p, false, 0x83, (some (5, rm)), (.b imm)⟩
  | .xorRm8Imm8 p al rm imm => ⟨p, false, al.byte, (some (6, rm)), (.b imm)⟩
  | .xorRmvImmz p rm imm => ⟨p, false, 0x81, (some (6, rm)), (.z imm)⟩
  | .xorRmvImm8 p rm imm => ⟨p, false, 0x83, (some (6, rm)), (.b imm)⟩
  | .cmpRm8Imm8 p al rm imm => ⟨p, false, al.byte, (some (7, rm)), (.b imm)⟩
  | .cmpRmvImmz p rm imm => ⟨p, false, 0x81, (some (7, rm)), (.z imm)⟩
  | .cmpRmvImm8 p rm imm => ⟨p, false, 0x83, (some (7, rm)), (.b imm)⟩
  | .incRv p r => ⟨p, false, (opReg 0x40 r), none, .none⟩
  | .decRv p r => ⟨p, false, (opReg 0x48 r), none, .none⟩
  | .pushRv p r => ⟨p, false, (opReg 0x50 r), none, .none⟩
  | .popRv p r => ⟨p, false, (opReg 0x58 r), none, .none⟩
  | .pushImmz p imm => ⟨p, false, 0x68, none, (.z imm)⟩
  | .imulRvRmvImmz p reg rm imm => ⟨p, false, 0x69, (some (reg.index, rm)), (.z imm)⟩
  | .pushImm8 p imm => ⟨p, false, 0x6A, none, (.b imm)⟩
  | .imulRvRmvImm8 p reg rm imm => ⟨p, false, 0x6B, (some (reg.index, rm)), (.b imm)⟩
  | .jccRel8 p cc rel => ⟨p, false, (opCond 0x70 cc), none, (.b rel)⟩
  | .testRm8R8 p reg rm => ⟨p, false, 0x84, (some (reg.index, rm)), .none⟩
  | .testRmvRv p reg rm => ⟨p, false, 0x85, (some (reg.index, rm)), .none⟩
  | .xchgRm8R8 p reg rm => ⟨p, false, 0x86, (some (reg.index, rm)), .none⟩
  | .xchgRmvRv p reg rm => ⟨p, false, 0x87, (some (reg.index, rm)), .none⟩
  | .movRm8R8 p reg rm => ⟨p, false, 0x88, (some (reg.index, rm)), .none⟩
  | .movRmvRv p reg rm => ⟨p, false, 0x89, (some (reg.index, rm)), .none⟩
  | .movR8Rm8 p reg rm => ⟨p, false, 0x8A, (some (reg.index, rm)), .none⟩
  | .movRvRmv p reg rm => ⟨p, false, 0x8B, (some (reg.index, rm)), .none⟩
  | .leaRvM p reg m => ⟨p, false, 0x8D, (some (reg.index, .mem m)), .none⟩
  | .nop p => ⟨p, false, 0x90, none, .none⟩
  | .xchgEaxEcx p => ⟨p, false, 0x91, none, .none⟩
  | .xchgEaxEdx p => ⟨p, false, 0x92, none, .none⟩
  | .xchgEaxEbx p => ⟨p, false, 0x93, none, .none⟩
  | .xchgEaxEsp p => ⟨p, false, 0x94, none, .none⟩
  | .xchgEaxEbp p => ⟨p, false, 0x95, none, .none⟩
  | .xchgEaxEsi p => ⟨p, false, 0x96, none, .none⟩
  | .xchgEaxEdi p => ⟨p, false, 0x97, none, .none⟩
  | .cbwCwde p => ⟨p, false, 0x98, none, .none⟩
  | .cwdCdq p => ⟨p, false, 0x99, none, .none⟩
  | .movAlMoffs8 p off => ⟨p, false, 0xA0, none, (.m off)⟩
  | .movEaxMoffsv p off => ⟨p, false, 0xA1, none, (.m off)⟩
  | .movMoffs8Al p off => ⟨p, false, 0xA2, none, (.m off)⟩
  | .movMoffsvEax p off => ⟨p, false, 0xA3, none, (.m off)⟩
  | .testAlImm8 p imm => ⟨p, false, 0xA8, none, (.b imm)⟩
  | .testEaxImmz p imm => ⟨p, false, 0xA9, none, (.z imm)⟩
  | .movR8Imm8 p r imm => ⟨p, false, (opReg 0xB0 r), none, (.b imm)⟩
  | .movRvImmz p r imm => ⟨p, false, (opReg 0xB8 r), none, (.z imm)⟩
  | .rolRm8Imm8 p rm imm => ⟨p, false, 0xC0, (some (0, rm)), (.b imm)⟩
  | .rolRmvImm8 p rm imm => ⟨p, false, 0xC1, (some (0, rm)), (.b imm)⟩
  | .rolRm8One p rm => ⟨p, false, 0xD0, (some (0, rm)), .none⟩
  | .rolRmvOne p rm => ⟨p, false, 0xD1, (some (0, rm)), .none⟩
  | .rolRm8Cl p rm => ⟨p, false, 0xD2, (some (0, rm)), .none⟩
  | .rolRmvCl p rm => ⟨p, false, 0xD3, (some (0, rm)), .none⟩
  | .rorRm8Imm8 p rm imm => ⟨p, false, 0xC0, (some (1, rm)), (.b imm)⟩
  | .rorRmvImm8 p rm imm => ⟨p, false, 0xC1, (some (1, rm)), (.b imm)⟩
  | .rorRm8One p rm => ⟨p, false, 0xD0, (some (1, rm)), .none⟩
  | .rorRmvOne p rm => ⟨p, false, 0xD1, (some (1, rm)), .none⟩
  | .rorRm8Cl p rm => ⟨p, false, 0xD2, (some (1, rm)), .none⟩
  | .rorRmvCl p rm => ⟨p, false, 0xD3, (some (1, rm)), .none⟩
  | .rclRm8Imm8 p rm imm => ⟨p, false, 0xC0, (some (2, rm)), (.b imm)⟩
  | .rclRmvImm8 p rm imm => ⟨p, false, 0xC1, (some (2, rm)), (.b imm)⟩
  | .rclRm8One p rm => ⟨p, false, 0xD0, (some (2, rm)), .none⟩
  | .rclRmvOne p rm => ⟨p, false, 0xD1, (some (2, rm)), .none⟩
  | .rclRm8Cl p rm => ⟨p, false, 0xD2, (some (2, rm)), .none⟩
  | .rclRmvCl p rm => ⟨p, false, 0xD3, (some (2, rm)), .none⟩
  | .rcrRm8Imm8 p rm imm => ⟨p, false, 0xC0, (some (3, rm)), (.b imm)⟩
  | .rcrRmvImm8 p rm imm => ⟨p, false, 0xC1, (some (3, rm)), (.b imm)⟩
  | .rcrRm8One p rm => ⟨p, false, 0xD0, (some (3, rm)), .none⟩
  | .rcrRmvOne p rm => ⟨p, false, 0xD1, (some (3, rm)), .none⟩
  | .rcrRm8Cl p rm => ⟨p, false, 0xD2, (some (3, rm)), .none⟩
  | .rcrRmvCl p rm => ⟨p, false, 0xD3, (some (3, rm)), .none⟩
  | .shlRm8Imm8 p rm imm => ⟨p, false, 0xC0, (some (4, rm)), (.b imm)⟩
  | .shlRmvImm8 p rm imm => ⟨p, false, 0xC1, (some (4, rm)), (.b imm)⟩
  | .shlRm8One p rm => ⟨p, false, 0xD0, (some (4, rm)), .none⟩
  | .shlRmvOne p rm => ⟨p, false, 0xD1, (some (4, rm)), .none⟩
  | .shlRm8Cl p rm => ⟨p, false, 0xD2, (some (4, rm)), .none⟩
  | .shlRmvCl p rm => ⟨p, false, 0xD3, (some (4, rm)), .none⟩
  | .shrRm8Imm8 p rm imm => ⟨p, false, 0xC0, (some (5, rm)), (.b imm)⟩
  | .shrRmvImm8 p rm imm => ⟨p, false, 0xC1, (some (5, rm)), (.b imm)⟩
  | .shrRm8One p rm => ⟨p, false, 0xD0, (some (5, rm)), .none⟩
  | .shrRmvOne p rm => ⟨p, false, 0xD1, (some (5, rm)), .none⟩
  | .shrRm8Cl p rm => ⟨p, false, 0xD2, (some (5, rm)), .none⟩
  | .shrRmvCl p rm => ⟨p, false, 0xD3, (some (5, rm)), .none⟩
  | .sarRm8Imm8 p rm imm => ⟨p, false, 0xC0, (some (7, rm)), (.b imm)⟩
  | .sarRmvImm8 p rm imm => ⟨p, false, 0xC1, (some (7, rm)), (.b imm)⟩
  | .sarRm8One p rm => ⟨p, false, 0xD0, (some (7, rm)), .none⟩
  | .sarRmvOne p rm => ⟨p, false, 0xD1, (some (7, rm)), .none⟩
  | .sarRm8Cl p rm => ⟨p, false, 0xD2, (some (7, rm)), .none⟩
  | .sarRmvCl p rm => ⟨p, false, 0xD3, (some (7, rm)), .none⟩
  | .retImm16 p imm => ⟨p, false, 0xC2, none, (.w imm)⟩
  | .ret p => ⟨p, false, 0xC3, none, .none⟩
  | .movRm8Imm8 p rm imm => ⟨p, false, 0xC6, (some (0, rm)), (.b imm)⟩
  | .movRmvImmz p rm imm => ⟨p, false, 0xC7, (some (0, rm)), (.z imm)⟩
  | .callRelz p rel => ⟨p, false, 0xE8, none, (.z rel)⟩
  | .jmpRelz p rel => ⟨p, false, 0xE9, none, (.z rel)⟩
  | .jmpRel8 p rel => ⟨p, false, 0xEB, none, (.b rel)⟩
  | .hlt p => ⟨p, false, 0xF4, none, .none⟩
  | .cmc p => ⟨p, false, 0xF5, none, .none⟩
  | .testRm8Imm8 p rm imm => ⟨p, false, 0xF6, (some (0, rm)), (.b imm)⟩
  | .testRmvImmz p rm imm => ⟨p, false, 0xF7, (some (0, rm)), (.z imm)⟩
  | .notRm8 p rm => ⟨p, false, 0xF6, (some (2, rm)), .none⟩
  | .notRmv p rm => ⟨p, false, 0xF7, (some (2, rm)), .none⟩
  | .negRm8 p rm => ⟨p, false, 0xF6, (some (3, rm)), .none⟩
  | .negRmv p rm => ⟨p, false, 0xF7, (some (3, rm)), .none⟩
  | .mulRm8 p rm => ⟨p, false, 0xF6, (some (4, rm)), .none⟩
  | .mulRmv p rm => ⟨p, false, 0xF7, (some (4, rm)), .none⟩
  | .imulRm8 p rm => ⟨p, false, 0xF6, (some (5, rm)), .none⟩
  | .imulRmv p rm => ⟨p, false, 0xF7, (some (5, rm)), .none⟩
  | .divRm8 p rm => ⟨p, false, 0xF6, (some (6, rm)), .none⟩
  | .divRmv p rm => ⟨p, false, 0xF7, (some (6, rm)), .none⟩
  | .idivRm8 p rm => ⟨p, false, 0xF6, (some (7, rm)), .none⟩
  | .idivRmv p rm => ⟨p, false, 0xF7, (some (7, rm)), .none⟩
  | .clc p => ⟨p, false, 0xF8, none, .none⟩
  | .stc p => ⟨p, false, 0xF9, none, .none⟩
  | .incRm8 p rm => ⟨p, false, 0xFE, (some (0, rm)), .none⟩
  | .decRm8 p rm => ⟨p, false, 0xFE, (some (1, rm)), .none⟩
  | .incRmv p rm => ⟨p, false, 0xFF, (some (0, rm)), .none⟩
  | .decRmv p rm => ⟨p, false, 0xFF, (some (1, rm)), .none⟩
  | .callRmv p rm => ⟨p, false, 0xFF, (some (2, rm)), .none⟩
  | .jmpRmv p rm => ⟨p, false, 0xFF, (some (4, rm)), .none⟩
  | .pushRmv p rm => ⟨p, false, 0xFF, (some (6, rm)), .none⟩
  | .ud2 p => ⟨p, true, 0x0B, none, .none⟩
  | .jccRelz p cc rel => ⟨p, true, (opCond 0x80 cc), none, (.z rel)⟩
  | .setccRm8 p cc ext rm => ⟨p, true, (opCond 0x90 cc), (some (ext, rm)), .none⟩
  | .imulRvRmv p reg rm => ⟨p, true, 0xAF, (some (reg.index, rm)), .none⟩
  | .movzxRvRm8 p reg rm => ⟨p, true, 0xB6, (some (reg.index, rm)), .none⟩
  | .movzxRvRm16 p reg rm => ⟨p, true, 0xB7, (some (reg.index, rm)), .none⟩
  | .movsxRvRm8 p reg rm => ⟨p, true, 0xBE, (some (reg.index, rm)), .none⟩
  | .movsxRvRm16 p reg rm => ⟨p, true, 0xBF, (some (reg.index, rm)), .none⟩

/-- The prefixes of an instruction. -/
def Instr.pfx (i : Instr) : Prefixes := i.layout.pfx

/-- The bytes of the ModRM byte and what follows it up to the immediate. -/
def modrmBytes : Option (BitVec 3 × Rm) → List Byte
  | none => []
  | some (reg, rm) => packByte rm.mod reg rm.rm :: rm.tail

/-- The bytes of the immediate field. -/
def ImmField.bytes : ImmField → List Byte
  | .none => []
  | .b v => [v]
  | .w v => bytes2 v
  | .z v => v.bytes
  | .m v => v.bytes

/-- The opcode bytes (R110). -/
def Layout.opBytes (l : Layout) : List Byte := if l.two then [0x0F, l.op] else [l.op]

/-- The bytes of a layout, in the order of R105. -/
def Layout.bytes (l : Layout) : List Byte :=
  l.pfx.list.map Prefix.byte ++ (l.opBytes ++ (modrmBytes l.modrm ++ l.imm.bytes))

/-- The bytes of an instruction. -/
def encode (i : Instr) : List Byte := i.layout.bytes

/-! ### The length (R128, R144) -/

/-- The bytes of a 16-bit form's displacement (R128). -/
def Disp16.len : Disp16 → Nat
  | .none => 0
  | .d8 _ => 1
  | .d16 _ => 2

/-- The bytes of a 32-bit form's displacement (R128). -/
def Disp32.len : Disp32 → Nat
  | .none => 0
  | .d8 _ => 1
  | .d32 _ => 4

/-- The bytes the resolver consumes after the opcode, ModRM byte included (R128). -/
def Rm.len : Rm → Nat
  | .reg _ => 1
  | .mem (.based16 _ d) => 1 + d.len
  | .mem (.direct16 _) => 3
  | .mem (.based32 _ d) => 1 + d.len
  | .mem (.direct32 _) => 5
  | .mem (.sib _ _ _ d) => 2 + d.len
  | .mem (.sibDirect _ _ _) => 6

/-- The bytes of an `iz`, `relz` or `moffs` field. -/
def Immz.len : Immz → Nat
  | .i16 _ => 2
  | .i32 _ => 4

/-- The bytes of an immediate field (R130). -/
def ImmField.len : ImmField → Nat
  | .none => 0
  | .b _ => 1
  | .w _ => 2
  | .z v => v.len
  | .m v => v.len

/-- The length of a layout (R144). -/
def Layout.len (l : Layout) : Nat :=
  l.pfx.list.length + (if l.two then 2 else 1) + (l.modrm.elim 0 fun x => x.2.len) + l.imm.len

/-- `len`, the number of bytes of the instruction (R144; 40_unit_protocol.md R161). -/
def Instr.len (i : Instr) : Nat := i.layout.len

end Sys2Proof
end

