-- ==== Sys2Proof/Machine/Ops.lean ====
section
/-! DEFINITION. Ops: the named operations over registers and memory, the access oracle, the unit as a
transaction (40_unit_protocol.md R165, R166), and taking a trap with what the driver does after it. -/

namespace Sys2Proof.Machine

/-- What a step or a meaning answers. -/
abbrev Out := Host.Outcome State Fault Refusal

/-! ### General registers (10_state.md R31 to R34) -/

/-- `reg32(i)` (R31). -/
def Gprs.get (g : Gprs) : Reg → Word
  | .eax => g.eax
  | .ecx => g.ecx
  | .edx => g.edx
  | .ebx => g.ebx
  | .esp => g.esp
  | .ebp => g.ebp
  | .esi => g.esi
  | .edi => g.edi

/-- `reg32(i) <- v` (R31). -/
def Gprs.set (g : Gprs) (r : Reg) (v : Word) : Gprs :=
  match r with
  | .eax => { g with eax := v }
  | .ecx => { g with ecx := v }
  | .edx => { g with edx := v }
  | .ebx => { g with ebx := v }
  | .esp => { g with esp := v }
  | .ebp => { g with ebp := v }
  | .esi => { g with esi := v }
  | .edi => { g with edi := v }

/-- The register that holds the 8-bit view i: gpr[i] for i < 4, gpr[i-4] for i >= 4 (R33). -/
def Reg.byteHome : Reg → Reg
  | .eax => .eax
  | .ecx => .ecx
  | .edx => .edx
  | .ebx => .ebx
  | .esp => .eax
  | .ebp => .ecx
  | .esi => .edx
  | .edi => .ebx

/-- Whether the 8-bit view i is bits 15:8 (AH, CH, DH, BH) rather than bits 7:0 (R33). -/
def Reg.byteHigh : Reg → Bool
  | .eax => false
  | .ecx => false
  | .edx => false
  | .ebx => false
  | .esp => true
  | .ebp => true
  | .esi => true
  | .edi => true

/-- `regN(i)`: the view of register i by the operand width (R31 to R34). -/
def Gprs.view (g : Gprs) (z : Size) (r : Reg) : BitVec z.bits :=
  match z with
  | .s32 => g.get r
  | .s16 => (g.get r).extractLsb' 0 16
  | .s8 => (g.get (Reg.byteHome r)).extractLsb' (if Reg.byteHigh r then 8 else 0) 8

/-- Replace bits 15:0 (R32). -/
def setLow16 (w : Word) (v : BitVec 16) : Word := w.extractLsb' 16 16 ++ v

/-- Replace bits 7:0 (R33). -/
def setLow8 (w : Word) (v : BitVec 8) : Word := w.extractLsb' 8 24 ++ v

/-- Replace bits 15:8 (R33). -/
def setHigh8 (w : Word) (v : BitVec 8) : Word := w.extractLsb' 16 16 ++ v ++ w.extractLsb' 0 8

/-- `regN(i) <- v`: a write through a narrow view keeps the other bits (R32 to R34). -/
def Gprs.setView (g : Gprs) (z : Size) (r : Reg) (v : BitVec z.bits) : Gprs :=
  match z with
  | .s32 => g.set r v
  | .s16 => g.set r (setLow16 (g.get r) v)
  | .s8 =>
    let h := Reg.byteHome r
    g.set h (if Reg.byteHigh r then setHigh8 (g.get h) v else setLow8 (g.get h) v)

/-- The segment register s (10_state.md R51). -/
def Segs.get (g : Segs) : SegReg → Segment
  | .es => g.es
  | .cs => g.cs
  | .ss => g.ss
  | .ds => g.ds
  | .fs => g.fs
  | .gs => g.gs

/-! ### Memory (20_memory.md R70, R73, R76, R77) -/

/-- What an address that memory does not list reads as. The spec leaves the contents at reset open
(10_state.md R60). DESIGN CHOICE, unsafe: notes/assumptions/6.md. -/
def unlistedByte : Byte := 0

/-- The canonical form from address `lo` on: addresses strictly rising and below 2^32, no entry equal to
what an unlisted address reads as. -/
def Memory.wfFrom (lo : Nat) : Memory → Bool
  | [] => true
  | (k, b) :: m => decide (lo ≤ k) && decide (k < 2 ^ 32) && b != unlistedByte && Memory.wfFrom (k + 1) m

/-- The canonical form of a memory. -/
def Memory.wf (m : Memory) : Bool := Memory.wfFrom 0 m

/-- The byte at an address. -/
def Memory.read (m : Memory) (a : Nat) : Byte :=
  match m with
  | [] => unlistedByte
  | (k, b) :: m => if k = a then b else Memory.read m a

/-- Write the byte at an address, keeping the canonical form. -/
def Memory.write (m : Memory) (a : Nat) (v : Byte) : Memory :=
  match m with
  | [] => if v = unlistedByte then [] else [(a, v)]
  | (k, b) :: m =>
    if a < k then (if v = unlistedByte then (k, b) :: m else (a, v) :: (k, b) :: m)
    else if a = k then (if v = unlistedByte then m else (a, v) :: m)
    else (k, b) :: Memory.write m a v

/-- The n bytes from linear address a on, wrapping at 2^32 (R73). -/
def Memory.readBytes (m : Memory) (a : Word) : Nat → List Byte
  | 0 => []
  | n + 1 => Memory.read m a.toNat :: Memory.readBytes m (a + 1) n

/-- Store the bytes from linear address a on, wrapping at 2^32 (R72, R73, R77). -/
def Memory.writeBytes (m : Memory) (a : Word) : List Byte → Memory
  | [] => m
  | b :: l => Memory.writeBytes (Memory.write m a.toNat b) (a + 1) l

/-- The value of bytes, the lowest address the least significant (R76). -/
def leValue : List Byte → Nat
  | [] => 0
  | b :: l => b.toNat + 256 * leValue l

/-- The n bytes of a value, the least significant at the lowest address (R77). -/
def leBytes : Nat → Nat → List Byte
  | 0, _ => []
  | n + 1, v => BitVec.ofNat 8 v :: leBytes n (v / 256)

/-- `lin(s, off)`, the linear address of an offset in a segment (R73). -/
def State.lin (s : State) (g : SegReg) (off : Word) : Word := (s.seg.get g).base + off

/-! ### The access oracle (20_memory.md R74, R75) -/

/-- An entry fits an access. -/
def AccessRule.fits (r : AccessRule) (k : AccessKind) (g : SegReg) (off : Word) (n : Nat) : Bool :=
  r.kind == k && r.seg == g && decide (r.lo.toNat ≤ off.toNat) && decide (off.toNat ≤ r.hi.toNat) &&
    (r.size == none || r.size == some n)

/-- The answer of a table: the first entry that fits, Ok where none does. -/
def oracleAnswer (t : List AccessRule) (k : AccessKind) (g : SegReg) (off : Word) (n : Nat) : AccessAnswer :=
  match t.find? fun r => AccessRule.fits r k g off n with
  | some r => r.answer
  | none => .ok

/-- `Access(kind, s, off, n)` (R74). -/
def State.access (s : State) (k : AccessKind) (g : SegReg) (off : Word) (n : Nat) : AccessAnswer :=
  oracleAnswer s.params.access k g off n

/-- Why the body of a unit stops before it completes: it raises a fault (00_scope.md R14), or the state
is refused (R75). -/
inductive Stop where
  | trap (vector : Nat) (code : Option Word)
  | refuse (r : Refusal)
  deriving DecidableEq, Repr

/-- Ask the oracle: a fault is raised, Unmodelled refuses (R75 to R77). -/
def State.check (s : State) (k : AccessKind) (g : SegReg) (off : Word) (n : Nat) : Except Stop Unit :=
  match s.access k g off n with
  | .ok => .ok ()
  | .fault v c => .error (.trap v c)
  | .unmodelled => .error (.refuse .unmodelledMemory)

/-- `MemRead(s, off, n)` (R76). -/
def State.memRead (s : State) (g : SegReg) (off : Word) (z : Size) : Except Stop (BitVec z.bits) := do
  s.check .read g off z.bytes
  .ok (BitVec.ofNat z.bits (leValue (Memory.readBytes s.mem (s.lin g off) z.bytes)))

/-! ### The unit as a transaction (40_unit_protocol.md R165, R166) -/

/-- A staged memory write: its linear address and its bytes (20_memory.md R77). -/
structure Store where
  lin : Word
  bytes : List Byte
  deriving DecidableEq, Repr

/-- What a unit has staged: the general registers and flags it leaves, the draws it has used, at most
one memory write, and its tag. Nothing else of the state is a unit's to change. -/
structure Effect where
  gpr : Gprs
  flags : Flags
  draws : Nat
  store : Option Store
  tag : Tag
  deriving DecidableEq, Repr

/-- Nothing staged. -/
def Effect.start (s : State) : Effect where
  gpr := s.gpr
  flags := s.flags
  draws := s.draws
  store := none
  tag := .noBranch

/-- `MemWrite(s, off, n, v)`: the oracle is asked now, the bytes are staged (20_memory.md R77). -/
def State.memWrite (s : State) (g : SegReg) (off : Word) (z : Size) (v : BitVec z.bits) (e : Effect) :
    Except Stop Effect := do
  s.check .write g off z.bytes
  .ok { e with store := some ⟨s.lin g off, leBytes z.bytes v.toNat⟩ }

/-- Some byte of the n bytes at a lies among the len bytes at b, on the 2^32 circle
(70_reset_and_hazards.md R460; 20_memory.md R73). -/
def overlaps (a : Word) (n : Nat) (b : Word) (len : Nat) : Bool :=
  (List.range n).any fun k => decide ((a + BitVec.ofNat 32 k - b).toNat < len)

/-- The n bytes at linear address a meet the bytes of a unit of the running block, executed or not
(70_reset_and_hazards.md R460). With no block running there is nothing to meet. -/
def State.hitsBlock (s : State) (a : Word) (n : Nat) : Bool :=
  match s.block with
  | none => false
  | some b => (b.done ++ b.todo).any fun u => overlaps a n (s.lin .cs u.start) u.instr.len

/-- The staged write, if any, meets the running block. -/
def Effect.hitsBlock (e : Effect) (s : State) : Bool :=
  match e.store with
  | none => false
  | some w => s.hitsBlock w.lin w.bytes.length

/-- `nextEIP` of an instruction of `len` bytes at eip (46_control.md R330). -/
def State.nextEip (s : State) (len : Nat) : Word := s.eip + BitVec.ofNat 32 len

/-- Where eip goes when a unit completes with a tag (40_unit_protocol.md R165). -/
def Tag.eip (next : Word) : Tag → Word
  | .noBranch => next
  | .jump t => t
  | .cond true t => t
  | .cond false _ => next
  | .trap _ _ => next
  | .halt => next

/-- The memory after the staged write. -/
def Effect.mem (e : Effect) (m : Memory) : Memory :=
  match e.store with
  | none => m
  | some w => Memory.writeBytes m w.lin w.bytes

/-- Apply what a unit of `len` bytes staged (40_unit_protocol.md R165). -/
def State.commit (s : State) (len : Nat) (e : Effect) : State :=
  { s with
    gpr := e.gpr
    flags := e.flags
    draws := e.draws
    mem := e.mem s.mem
    eip := e.tag.eip (s.nextEip len)
    lastTag := e.tag }

/-- TAKING AN EXCEPTION, as this block takes one (40_unit_protocol.md R166; 60_exceptions.md R403, R409):
the unit commits nothing, eip stays at its first byte, and its tag is Trap(vector, code). Trap entry is
the driver's. -/
def State.takeTrap (s : State) (vector : Nat) (code : Option Word) : State :=
  { s with lastTag := .trap vector code }

/-- A decode fault as a block's result: the state unchanged, no unit run (40_unit_protocol.md R180,
R183; 60_exceptions.md R403). -/
def State.decodeFault (s : State) (k : DecodeFault) : State :=
  { s with block := none, report := some ⟨0, .decodeFault k⟩ }

/-- What follows a trap, a decode fault or a halt: the driver, having handled it, asks for the next block
at eip (40_unit_protocol.md R185; 60_exceptions.md R405, R410, R414). Trap return is not part of this
block. DESIGN CHOICE, safe: notes/assumptions/8.md. -/
def State.driverResume (s : State) : State := { s with report := none }

/-- A refusal: the reason is set, nothing is reported, and the state has no further step
(40_unit_protocol.md R168). -/
def State.refuse (s : State) (r : Refusal) : State :=
  { s with block := none, report := none, refused := some r }

/-- `executeUnit` of a unit of `len` bytes whose body staged `e` or stopped (40_unit_protocol.md R165):
a trap discards everything; a staged write into the running block refuses; otherwise all of it commits. -/
def runUnit (len : Nat) (body : Except Stop Effect) (s : State) : Out :=
  match body with
  | .error (.trap v c) => .next (s.takeTrap v c)
  | .error (.refuse r) => .refused r
  | .ok e => if e.hitsBlock s then .refused .selfModifyingBlock else .next (s.commit len e)

end Sys2Proof.Machine
end

