-- ==== Sys2Proof/Machine/Operands.lean ====
section
/-! DEFINITION. Operands: the Operand References a ModRM form resolves to (10_state.md R53 to R55;
30_encoding.md R111 to R132), the extension of immediates (30_encoding.md R130), the stack primitives
(45_data_move.md R318) and the targets of control transfers (46_control.md R332, R333). -/

namespace Sys2Proof.Machine

/-! ### Operand References -/

/-- An address expression (10_state.md R53). -/
structure EA where
  base : Option Reg
  index : Option (Reg × Scale)
  disp : Word
  asize : OpSize
  deriving DecidableEq, Repr

/-- An Operand Reference: `Reg(i, N)` or `Mem(seg, ea, N)` (10_state.md R53); N is given where it is
read or written. -/
inductive Ref where
  | reg (r : Reg)
  | mem (g : SegReg) (ea : EA)
  deriving DecidableEq, Repr

/-- The scale as a factor (30_encoding.md R123). -/
def Scale.factor : Scale → Nat
  | .x1 => 1
  | .x2 => 2
  | .x4 => 4
  | .x8 => 8

/-- The displacement of a 16-bit form, an 8-bit one sign-extended to 16 (30_encoding.md R116). -/
def Disp16.value : Disp16 → BitVec 16
  | .none => 0
  | .d8 v => v.signExtend 16
  | .d16 v => v

/-- The displacement of a 32-bit form, an 8-bit one sign-extended to 32 (30_encoding.md R121). -/
def Disp32.value : Disp32 → Word
  | .none => 0
  | .d8 v => v.signExtend 32
  | .d32 v => v

/-- The base register of a 16-bit form (30_encoding.md R114). -/
def Base16.base : Base16 → Reg
  | .bxSi => .ebx
  | .bxDi => .ebx
  | .bpSi => .ebp
  | .bpDi => .ebp
  | .si => .esi
  | .di => .edi
  | .bp => .ebp
  | .bx => .ebx

/-- The index register of a 16-bit form (30_encoding.md R114). -/
def Base16.indexReg : Base16 → Option Reg
  | .bxSi => some .esi
  | .bxDi => some .edi
  | .bpSi => some .esi
  | .bpDi => some .edi
  | .si => none
  | .di => none
  | .bp => none
  | .bx => none

/-- The SIB index: ESP in the field means none (30_encoding.md R123). -/
def sibIndex (ix : Reg) (sc : Scale) : Option (Reg × Scale) :=
  if ix = .esp then none else some (ix, sc)

/-- The address expression of a memory form (30_encoding.md R114 to R124). -/
def MemForm.ea : MemForm → EA
  | .based16 b d =>
    ⟨some (Base16.base b), (Base16.indexReg b).map fun r => (r, .x1), (Disp16.value d).setWidth 32, .w16⟩
  | .direct16 d => ⟨none, none, d.setWidth 32, .w16⟩
  | .based32 b d => ⟨some b, none, Disp32.value d, .w32⟩
  | .direct32 d => ⟨none, none, d, .w32⟩
  | .sib sc ix b d => ⟨some b, sibIndex ix sc, Disp32.value d, .w32⟩
  | .sibDirect sc ix d => ⟨none, sibIndex ix sc, d, .w32⟩

/-- The default segment of a memory form: SS when the base is BP, EBP or ESP, else DS
(30_encoding.md R117, R125). -/
def MemForm.defaultSeg (m : MemForm) : SegReg :=
  match (MemForm.ea m).base with
  | some .ebp => .ss
  | some .esp => .ss
  | some .eax => .ds
  | some .ecx => .ds
  | some .edx => .ds
  | some .ebx => .ds
  | some .esi => .ds
  | some .edi => .ds
  | none => .ds

/-- The segment of a memory operand: the override if there is one (30_encoding.md R107). -/
def Prefixes.segOr (p : Prefixes) (g : SegReg) : SegReg := (segOverride p.list).getD g

/-- The reference of a memory form. -/
def memRef (p : Prefixes) (m : MemForm) : Ref := .mem (Prefixes.segOr p (MemForm.defaultSeg m)) (MemForm.ea m)

/-- The reference of an r/m operand (30_encoding.md R112, R127). -/
def rmRef (p : Prefixes) : Rm → Ref
  | .reg r => .reg r
  | .mem m => memRef p m

/-- An `iz` or `moffs` field zero-extended to 32 bits (30_encoding.md R130). -/
def Immz.zext : Immz → Word
  | .i16 v => v.setWidth 32
  | .i32 v => v

/-- A `relz` field sign-extended to 32 bits (30_encoding.md R130). -/
def Immz.sext : Immz → Word
  | .i16 v => v.signExtend 32
  | .i32 v => v

/-- The reference of a moffs operand (30_encoding.md R132). -/
def moffsRef (p : Prefixes) (off : Immz) : Ref :=
  .mem (Prefixes.segOr p .ds) ⟨none, none, Immz.zext off, p.addrSize⟩

/-- An `iz` immediate at the operand width (30_encoding.md R130). -/
def immz (z : Size) (v : Immz) : BitVec z.bits := (Immz.zext v).setWidth z.bits

/-- An `ibs` immediate sign-extended to the operand width (30_encoding.md R130). -/
def imms (z : Size) (v : BitVec 8) : BitVec z.bits := v.signExtend z.bits

/-- `reg_asize` for asize = 16 (10_state.md R54). -/
def Gprs.low16 (g : Gprs) (r : Reg) : BitVec 16 := g.view .s16 r

/-- `off(ea)` with asize = 32 (10_state.md R54; 30_encoding.md R126). -/
def EA.off32 (ea : EA) (g : Gprs) : Word :=
  (ea.base.elim 0 fun r => g.get r) +
    (ea.index.elim 0 fun x => g.get x.1 * BitVec.ofNat 32 (Scale.factor x.2)) + ea.disp

/-- `off(ea)` with asize = 16 (10_state.md R54; 30_encoding.md R118). -/
def EA.off16 (ea : EA) (g : Gprs) : BitVec 16 :=
  (ea.base.elim 0 fun r => g.low16 r) +
    (ea.index.elim 0 fun x => g.low16 x.1 * BitVec.ofNat 16 (Scale.factor x.2)) + ea.disp.setWidth 16

/-- `off(ea)`, computed modulo 2^asize from the live registers (10_state.md R54). -/
def EA.off (ea : EA) (g : Gprs) : Word :=
  match ea.asize with
  | .w32 => ea.off32 g
  | .w16 => (ea.off16 g).setWidth 32

/-- `read(ref, N)` (10_state.md R55). -/
def State.readRef (s : State) (z : Size) : Ref → Except Stop (BitVec z.bits)
  | .reg r => .ok (s.gpr.view z r)
  | .mem g ea => s.memRead g (ea.off s.gpr) z

/-- `write(ref, N, v)`: stages the write; a memory reference is computed from the registers at the
unit's start (10_state.md R55). -/
def State.writeRef (s : State) (z : Size) (ref : Ref) (v : BitVec z.bits) (e : Effect) : Except Stop Effect :=
  match ref with
  | .reg r => .ok { e with gpr := e.gpr.setView z r v }
  | .mem g ea => s.memWrite g (ea.off s.gpr) z v e

/-! ### The stack (45_data_move.md R318) -/

/-- SW = 32 (10_state.md R47). -/
def State.stackWide (s : State) : Bool := s.mode == .prot && s.stackSize32

/-- `trunc_SW`. -/
def State.truncSp (s : State) (t : Word) : Word :=
  if s.stackWide then t else (t.extractLsb' 0 16).setWidth 32

/-- `SPv`: ESP, or SP zero-extended. -/
def State.sp (s : State) : Word := s.truncSp s.gpr.esp

/-- Stage the stack pointer: ESP, or SP alone. -/
def State.setSp (s : State) (t : Word) (e : Effect) : Effect :=
  { e with
    gpr := if s.stackWide then e.gpr.set .esp t else e.gpr.setView .s16 .esp (t.extractLsb' 0 16) }

/-- The offset `Push` stores n bytes at. -/
def State.pushSp (s : State) (n : Nat) : Word := s.truncSp (s.sp - BitVec.ofNat 32 n)

/-- `Push(n, v)`. -/
def State.push (s : State) (z : Size) (v : BitVec z.bits) (e : Effect) : Except Stop Effect := do
  let e ← s.memWrite .ss (s.pushSp z.bytes) z v e
  .ok (s.setSp (s.pushSp z.bytes) e)

/-- The value `Pop(n)` reads. -/
def State.popRead (s : State) (z : Size) : Except Stop (BitVec z.bits) := s.memRead .ss s.sp z

/-- The stack pointer after `Pop(n)` and the release of k more bytes (46_control.md R341). -/
def State.popSp (s : State) (n k : Nat) : Word := s.truncSp (s.sp + BitVec.ofNat 32 (n + k))

/-! ### Targets (46_control.md R332, R333) -/

/-- With OS = 16 a target is truncated to 16 bits. -/
def truncTarget (p : Prefixes) (t : Word) : Word :=
  match p.opSize with
  | .w16 => t &&& 0x0000FFFF
  | .w32 => t

/-- A relative target of an instruction of `len` bytes. -/
def State.relTarget (s : State) (p : Prefixes) (len : Nat) (rel : Word) : Word :=
  truncTarget p (s.nextEip len + rel)

/-- An indirect or returned target: the value of width OS zero-extended. -/
def indirectTarget (p : Prefixes) {n : Nat} (v : BitVec n) : Word := truncTarget p (v.setWidth 32)

/-- The check of a target that is taken. -/
def State.checkTarget (s : State) (t : Word) : Except Stop Unit := s.check .branch .cs t 1

end Sys2Proof.Machine
end

