-- ==== Sys2Proof/Machine/Units.lean ====
section
/-! DEFINITION. Units: the bodies that several instruction rules share (40_unit_protocol.md R162): read the
operands, compute, stage the result and the flags. A body reads only the state the unit began in. -/

namespace Sys2Proof.Machine

/-- dst <- op(dst, src): ADD, ADC, SUB, SBB, AND, OR, XOR (41_arith.md R200 to R204; 42_logic.md R230 to
R232). dst is read first, then src, then dst is written through the same reference. -/
def aluBody (op : AluOp) (z : Size) (dst : Ref) (src : Except Stop (BitVec z.bits)) (s : State) :
    Except Stop Effect := do
  let a ← s.readRef z dst
  let b ← src
  let o := op z.bits s.flags a b
  s.writeRef z dst o.1 { Effect.start s with flags := o.2 }

/-- The flags of op(src1, src2), nothing written: CMP, TEST (41_arith.md R205; 42_logic.md R233). -/
def compareBody (op : AluOp) (z : Size) (a : Ref) (src : Except Stop (BitVec z.bits)) (s : State) :
    Except Stop Effect := do
  let a ← s.readRef z a
  let b ← src
  .ok { Effect.start s with flags := (op z.bits s.flags a b).2 }

/-- dst <- op(dst): INC, DEC, NEG, NOT (41_arith.md R206 to R208; 42_logic.md R234). -/
def unaryBody (op : UnaryOp) (z : Size) (dst : Ref) (s : State) : Except Stop Effect := do
  let a ← s.readRef z dst
  let o := op z.bits s.flags a
  s.writeRef z dst o.1 { Effect.start s with flags := o.2 }

/-- dst <- src: MOV, and SETcc with its bit (45_data_move.md R300 to R303, R323). -/
def moveBody (z : Size) (dst : Ref) (src : Except Stop (BitVec z.bits)) (s : State) : Except Stop Effect := do
  let v ← src
  s.writeRef z dst v (Effect.start s)

/-- Only the flags change: CLC, STC, CMC (47_flag_misc.md R360 to R362). -/
def flagBody (f : Flags) (s : State) : Except Stop Effect := .ok { Effect.start s with flags := f }

end Sys2Proof.Machine
end

