-- ==== Sys2Proof/Machine/Arith.lean ====
section
/-! DEFINITION. Arith: ADD, ADC, SUB, SBB, CMP, INC, DEC, NEG (41_arith.md R200 to R208). -/

namespace Sys2Proof.Machine

/-- ADD r/m8, r8 (R201). -/
def execAddRm8R8 (p : Prefixes) (reg : Reg) (rm : Rm) (s : State) : Out :=
  runUnit (Instr.addRm8R8 p reg rm).len (aluBody aluAdd .s8 (rmRef p rm) (s.readRef .s8 (.reg reg)) s) s

/-- ADD r/mv, rv (R201). -/
def execAddRmvRv (p : Prefixes) (reg : Reg) (rm : Rm) (s : State) : Out :=
  runUnit (Instr.addRmvRv p reg rm).len (aluBody aluAdd p.opSize.size (rmRef p rm) (s.readRef p.opSize.size (.reg reg)) s) s

/-- ADD r8, r/m8 (R201). -/
def execAddR8Rm8 (p : Prefixes) (reg : Reg) (rm : Rm) (s : State) : Out :=
  runUnit (Instr.addR8Rm8 p reg rm).len (aluBody aluAdd .s8 (.reg reg) (s.readRef .s8 (rmRef p rm)) s) s

/-- ADD rv, r/mv (R201). -/
def execAddRvRmv (p : Prefixes) (reg : Reg) (rm : Rm) (s : State) : Out :=
  runUnit (Instr.addRvRmv p reg rm).len (aluBody aluAdd p.opSize.size (.reg reg) (s.readRef p.opSize.size (rmRef p rm)) s) s

/-- ADD AL, imm8 (R201). -/
def execAddAlImm8 (p : Prefixes) (imm : BitVec 8) (s : State) : Out :=
  runUnit (Instr.addAlImm8 p imm).len (aluBody aluAdd .s8 (.reg .eax) (.ok imm) s) s

/-- ADD eAX, immz (R201). -/
def execAddEaxImmz (p : Prefixes) (imm : Immz) (s : State) : Out :=
  runUnit (Instr.addEaxImmz p imm).len (aluBody aluAdd p.opSize.size (.reg .eax) (.ok (immz p.opSize.size imm)) s) s

/-- ADC r/m8, r8 (R202). -/
def execAdcRm8R8 (p : Prefixes) (reg : Reg) (rm : Rm) (s : State) : Out :=
  runUnit (Instr.adcRm8R8 p reg rm).len (aluBody aluAdc .s8 (rmRef p rm) (s.readRef .s8 (.reg reg)) s) s

/-- ADC r/mv, rv (R202). -/
def execAdcRmvRv (p : Prefixes) (reg : Reg) (rm : Rm) (s : State) : Out :=
  runUnit (Instr.adcRmvRv p reg rm).len (aluBody aluAdc p.opSize.size (rmRef p rm) (s.readRef p.opSize.size (.reg reg)) s) s

/-- ADC r8, r/m8 (R202). -/
def execAdcR8Rm8 (p : Prefixes) (reg : Reg) (rm : Rm) (s : State) : Out :=
  runUnit (Instr.adcR8Rm8 p reg rm).len (aluBody aluAdc .s8 (.reg reg) (s.readRef .s8 (rmRef p rm)) s) s

/-- ADC rv, r/mv (R202). -/
def execAdcRvRmv (p : Prefixes) (reg : Reg) (rm : Rm) (s : State) : Out :=
  runUnit (Instr.adcRvRmv p reg rm).len (aluBody aluAdc p.opSize.size (.reg reg) (s.readRef p.opSize.size (rmRef p rm)) s) s

/-- ADC AL, imm8 (R202). -/
def execAdcAlImm8 (p : Prefixes) (imm : BitVec 8) (s : State) : Out :=
  runUnit (Instr.adcAlImm8 p imm).len (aluBody aluAdc .s8 (.reg .eax) (.ok imm) s) s

/-- ADC eAX, immz (R202). -/
def execAdcEaxImmz (p : Prefixes) (imm : Immz) (s : State) : Out :=
  runUnit (Instr.adcEaxImmz p imm).len (aluBody aluAdc p.opSize.size (.reg .eax) (.ok (immz p.opSize.size imm)) s) s

/-- SBB r/m8, r8 (R204). -/
def execSbbRm8R8 (p : Prefixes) (reg : Reg) (rm : Rm) (s : State) : Out :=
  runUnit (Instr.sbbRm8R8 p reg rm).len (aluBody aluSbb .s8 (rmRef p rm) (s.readRef .s8 (.reg reg)) s) s

/-- SBB r/mv, rv (R204). -/
def execSbbRmvRv (p : Prefixes) (reg : Reg) (rm : Rm) (s : State) : Out :=
  runUnit (Instr.sbbRmvRv p reg rm).len (aluBody aluSbb p.opSize.size (rmRef p rm) (s.readRef p.opSize.size (.reg reg)) s) s

/-- SBB r8, r/m8 (R204). -/
def execSbbR8Rm8 (p : Prefixes) (reg : Reg) (rm : Rm) (s : State) : Out :=
  runUnit (Instr.sbbR8Rm8 p reg rm).len (aluBody aluSbb .s8 (.reg reg) (s.readRef .s8 (rmRef p rm)) s) s

/-- SBB rv, r/mv (R204). -/
def execSbbRvRmv (p : Prefixes) (reg : Reg) (rm : Rm) (s : State) : Out :=
  runUnit (Instr.sbbRvRmv p reg rm).len (aluBody aluSbb p.opSize.size (.reg reg) (s.readRef p.opSize.size (rmRef p rm)) s) s

/-- SBB AL, imm8 (R204). -/
def execSbbAlImm8 (p : Prefixes) (imm : BitVec 8) (s : State) : Out :=
  runUnit (Instr.sbbAlImm8 p imm).len (aluBody aluSbb .s8 (.reg .eax) (.ok imm) s) s

/-- SBB eAX, immz (R204). -/
def execSbbEaxImmz (p : Prefixes) (imm : Immz) (s : State) : Out :=
  runUnit (Instr.sbbEaxImmz p imm).len (aluBody aluSbb p.opSize.size (.reg .eax) (.ok (immz p.opSize.size imm)) s) s

/-- SUB r/m8, r8 (R203). -/
def execSubRm8R8 (p : Prefixes) (reg : Reg) (rm : Rm) (s : State) : Out :=
  runUnit (Instr.subRm8R8 p reg rm).len (aluBody aluSub .s8 (rmRef p rm) (s.readRef .s8 (.reg reg)) s) s

/-- SUB r/mv, rv (R203). -/
def execSubRmvRv (p : Prefixes) (reg : Reg) (rm : Rm) (s : State) : Out :=
  runUnit (Instr.subRmvRv p reg rm).len (aluBody aluSub p.opSize.size (rmRef p rm) (s.readRef p.opSize.size (.reg reg)) s) s

/-- SUB r8, r/m8 (R203). -/
def execSubR8Rm8 (p : Prefixes) (reg : Reg) (rm : Rm) (s : State) : Out :=
  runUnit (Instr.subR8Rm8 p reg rm).len (aluBody aluSub .s8 (.reg reg) (s.readRef .s8 (rmRef p rm)) s) s

/-- SUB rv, r/mv (R203). -/
def execSubRvRmv (p : Prefixes) (reg : Reg) (rm : Rm) (s : State) : Out :=
  runUnit (Instr.subRvRmv p reg rm).len (aluBody aluSub p.opSize.size (.reg reg) (s.readRef p.opSize.size (rmRef p rm)) s) s

/-- SUB AL, imm8 (R203). -/
def execSubAlImm8 (p : Prefixes) (imm : BitVec 8) (s : State) : Out :=
  runUnit (Instr.subAlImm8 p imm).len (aluBody aluSub .s8 (.reg .eax) (.ok imm) s) s

/-- SUB eAX, immz (R203). -/
def execSubEaxImmz (p : Prefixes) (imm : Immz) (s : State) : Out :=
  runUnit (Instr.subEaxImmz p imm).len (aluBody aluSub p.opSize.size (.reg .eax) (.ok (immz p.opSize.size imm)) s) s

/-- CMP r/m8, r8 (R205). -/
def execCmpRm8R8 (p : Prefixes) (reg : Reg) (rm : Rm) (s : State) : Out :=
  runUnit (Instr.cmpRm8R8 p reg rm).len (compareBody aluSub .s8 (rmRef p rm) (s.readRef .s8 (.reg reg)) s) s

/-- CMP r/mv, rv (R205). -/
def execCmpRmvRv (p : Prefixes) (reg : Reg) (rm : Rm) (s : State) : Out :=
  runUnit (Instr.cmpRmvRv p reg rm).len (compareBody aluSub p.opSize.size (rmRef p rm) (s.readRef p.opSize.size (.reg reg)) s) s

/-- CMP r8, r/m8 (R205). -/
def execCmpR8Rm8 (p : Prefixes) (reg : Reg) (rm : Rm) (s : State) : Out :=
  runUnit (Instr.cmpR8Rm8 p reg rm).len (compareBody aluSub .s8 (.reg reg) (s.readRef .s8 (rmRef p rm)) s) s

/-- CMP rv, r/mv (R205). -/
def execCmpRvRmv (p : Prefixes) (reg : Reg) (rm : Rm) (s : State) : Out :=
  runUnit (Instr.cmpRvRmv p reg rm).len (compareBody aluSub p.opSize.size (.reg reg) (s.readRef p.opSize.size (rmRef p rm)) s) s

/-- CMP AL, imm8 (R205). -/
def execCmpAlImm8 (p : Prefixes) (imm : BitVec 8) (s : State) : Out :=
  runUnit (Instr.cmpAlImm8 p imm).len (compareBody aluSub .s8 (.reg .eax) (.ok imm) s) s

/-- CMP eAX, immz (R205). -/
def execCmpEaxImmz (p : Prefixes) (imm : Immz) (s : State) : Out :=
  runUnit (Instr.cmpEaxImmz p imm).len (compareBody aluSub p.opSize.size (.reg .eax) (.ok (immz p.opSize.size imm)) s) s

/-- ADD r/m8, imm8 (R201). -/
def execAddRm8Imm8 (p : Prefixes) (al : Opcode80) (rm : Rm) (imm : BitVec 8) (s : State) : Out :=
  runUnit (Instr.addRm8Imm8 p al rm imm).len (aluBody aluAdd .s8 (rmRef p rm) (.ok imm) s) s

/-- ADD r/mv, immz (R201). -/
def execAddRmvImmz (p : Prefixes) (rm : Rm) (imm : Immz) (s : State) : Out :=
  runUnit (Instr.addRmvImmz p rm imm).len (aluBody aluAdd p.opSize.size (rmRef p rm) (.ok (immz p.opSize.size imm)) s) s

/-- ADD r/mv, imm8 (R201). -/
def execAddRmvImm8 (p : Prefixes) (rm : Rm) (imm : BitVec 8) (s : State) : Out :=
  runUnit (Instr.addRmvImm8 p rm imm).len (aluBody aluAdd p.opSize.size (rmRef p rm) (.ok (imms p.opSize.size imm)) s) s

/-- ADC r/m8, imm8 (R202). -/
def execAdcRm8Imm8 (p : Prefixes) (al : Opcode80) (rm : Rm) (imm : BitVec 8) (s : State) : Out :=
  runUnit (Instr.adcRm8Imm8 p al rm imm).len (aluBody aluAdc .s8 (rmRef p rm) (.ok imm) s) s

/-- ADC r/mv, immz (R202). -/
def execAdcRmvImmz (p : Prefixes) (rm : Rm) (imm : Immz) (s : State) : Out :=
  runUnit (Instr.adcRmvImmz p rm imm).len (aluBody aluAdc p.opSize.size (rmRef p rm) (.ok (immz p.opSize.size imm)) s) s

/-- ADC r/mv, imm8 (R202). -/
def execAdcRmvImm8 (p : Prefixes) (rm : Rm) (imm : BitVec 8) (s : State) : Out :=
  runUnit (Instr.adcRmvImm8 p rm imm).len (aluBody aluAdc p.opSize.size (rmRef p rm) (.ok (imms p.opSize.size imm)) s) s

/-- SBB r/m8, imm8 (R204). -/
def execSbbRm8Imm8 (p : Prefixes) (al : Opcode80) (rm : Rm) (imm : BitVec 8) (s : State) : Out :=
  runUnit (Instr.sbbRm8Imm8 p al rm imm).len (aluBody aluSbb .s8 (rmRef p rm) (.ok imm) s) s

/-- SBB r/mv, immz (R204). -/
def execSbbRmvImmz (p : Prefixes) (rm : Rm) (imm : Immz) (s : State) : Out :=
  runUnit (Instr.sbbRmvImmz p rm imm).len (aluBody aluSbb p.opSize.size (rmRef p rm) (.ok (immz p.opSize.size imm)) s) s

/-- SBB r/mv, imm8 (R204). -/
def execSbbRmvImm8 (p : Prefixes) (rm : Rm) (imm : BitVec 8) (s : State) : Out :=
  runUnit (Instr.sbbRmvImm8 p rm imm).len (aluBody aluSbb p.opSize.size (rmRef p rm) (.ok (imms p.opSize.size imm)) s) s

/-- SUB r/m8, imm8 (R203). -/
def execSubRm8Imm8 (p : Prefixes) (al : Opcode80) (rm : Rm) (imm : BitVec 8) (s : State) : Out :=
  runUnit (Instr.subRm8Imm8 p al rm imm).len (aluBody aluSub .s8 (rmRef p rm) (.ok imm) s) s

/-- SUB r/mv, immz (R203). -/
def execSubRmvImmz (p : Prefixes) (rm : Rm) (imm : Immz) (s : State) : Out :=
  runUnit (Instr.subRmvImmz p rm imm).len (aluBody aluSub p.opSize.size (rmRef p rm) (.ok (immz p.opSize.size imm)) s) s

/-- SUB r/mv, imm8 (R203). -/
def execSubRmvImm8 (p : Prefixes) (rm : Rm) (imm : BitVec 8) (s : State) : Out :=
  runUnit (Instr.subRmvImm8 p rm imm).len (aluBody aluSub p.opSize.size (rmRef p rm) (.ok (imms p.opSize.size imm)) s) s

/-- CMP r/m8, imm8 (R205). -/
def execCmpRm8Imm8 (p : Prefixes) (al : Opcode80) (rm : Rm) (imm : BitVec 8) (s : State) : Out :=
  runUnit (Instr.cmpRm8Imm8 p al rm imm).len (compareBody aluSub .s8 (rmRef p rm) (.ok imm) s) s

/-- CMP r/mv, immz (R205). -/
def execCmpRmvImmz (p : Prefixes) (rm : Rm) (imm : Immz) (s : State) : Out :=
  runUnit (Instr.cmpRmvImmz p rm imm).len (compareBody aluSub p.opSize.size (rmRef p rm) (.ok (immz p.opSize.size imm)) s) s

/-- CMP r/mv, imm8 (R205). -/
def execCmpRmvImm8 (p : Prefixes) (rm : Rm) (imm : BitVec 8) (s : State) : Out :=
  runUnit (Instr.cmpRmvImm8 p rm imm).len (compareBody aluSub p.opSize.size (rmRef p rm) (.ok (imms p.opSize.size imm)) s) s

/-- INC rv (R206). -/
def execIncRv (p : Prefixes) (r : Reg) (s : State) : Out :=
  runUnit (Instr.incRv p r).len (unaryBody aluInc p.opSize.size (.reg r) s) s

/-- DEC rv (R207). -/
def execDecRv (p : Prefixes) (r : Reg) (s : State) : Out :=
  runUnit (Instr.decRv p r).len (unaryBody aluDec p.opSize.size (.reg r) s) s

/-- NEG r/m8 (R208). -/
def execNegRm8 (p : Prefixes) (rm : Rm) (s : State) : Out :=
  runUnit (Instr.negRm8 p rm).len (unaryBody aluNeg .s8 (rmRef p rm) s) s

/-- NEG r/mv (R208). -/
def execNegRmv (p : Prefixes) (rm : Rm) (s : State) : Out :=
  runUnit (Instr.negRmv p rm).len (unaryBody aluNeg p.opSize.size (rmRef p rm) s) s

/-- INC r/m8 (R206). -/
def execIncRm8 (p : Prefixes) (rm : Rm) (s : State) : Out :=
  runUnit (Instr.incRm8 p rm).len (unaryBody aluInc .s8 (rmRef p rm) s) s

/-- DEC r/m8 (R207). -/
def execDecRm8 (p : Prefixes) (rm : Rm) (s : State) : Out :=
  runUnit (Instr.decRm8 p rm).len (unaryBody aluDec .s8 (rmRef p rm) s) s

/-- INC r/mv (R206). -/
def execIncRmv (p : Prefixes) (rm : Rm) (s : State) : Out :=
  runUnit (Instr.incRmv p rm).len (unaryBody aluInc p.opSize.size (rmRef p rm) s) s

/-- DEC r/mv (R207). -/
def execDecRmv (p : Prefixes) (rm : Rm) (s : State) : Out :=
  runUnit (Instr.decRmv p rm).len (unaryBody aluDec p.opSize.size (rmRef p rm) s) s

end Sys2Proof.Machine
end

