-- ==== Sys2Proof/Machine/Control.lean ====
section
/-! DEFINITION. Control: Jcc, JMP, CALL, RET (46_control.md R330 to R345). Every one is a block terminator, and none writes a flag. -/

namespace Sys2Proof.Machine

/-- Jcc to t: the target is checked only when taken (R335, R336). -/
def jccBody (cc : Cond) (t : Word) (s : State) : Except Stop Effect :=
  if Cond.holds s.flags cc then do
    s.checkTarget t
    .ok { Effect.start s with tag := .cond true t }
  else .ok { Effect.start s with tag := .cond false t }

/-- JMP to t (R337, R338). -/
def jmpBody (t : Word) (s : State) : Except Stop Effect := do
  s.checkTarget t
  .ok { Effect.start s with tag := .jump t }

/-- JMP to the value of an r/m operand (R342). -/
def jmpRefBody (p : Prefixes) (src : Ref) (s : State) : Except Stop Effect := do
  let v ← s.readRef p.opSize.size src
  jmpBody (indirectTarget p v) s

/-- CALL to t by an instruction of `len` bytes: the target is checked, then nextEIP is pushed
(R339, R345; 60_exceptions.md R406). -/
def callBody (p : Prefixes) (len : Nat) (t : Word) (s : State) : Except Stop Effect := do
  s.checkTarget t
  let e ← s.push p.opSize.size ((s.nextEip len).setWidth p.opSize.size.bits) (Effect.start s)
  .ok { e with tag := .jump t }

/-- CALL to the value of an r/m operand, read before the push (R345). -/
def callRefBody (p : Prefixes) (len : Nat) (src : Ref) (s : State) : Except Stop Effect := do
  let v ← s.readRef p.opSize.size src
  callBody p len (indirectTarget p v) s

/-- RET, releasing k more bytes of stack: the stack is read, then the target is checked (R340, R341;
60_exceptions.md R406). -/
def retBody (p : Prefixes) (k : Nat) (s : State) : Except Stop Effect := do
  let v ← s.popRead p.opSize.size
  s.checkTarget (indirectTarget p v)
  .ok { s.setSp (s.popSp p.opSize.size.bytes k) (Effect.start s) with tag := .jump (indirectTarget p v) }

/-- Jcc rel8 (R335). -/
def execJccRel8 (p : Prefixes) (cc : Cond) (rel : BitVec 8) (s : State) : Out :=
  runUnit (Instr.jccRel8 p cc rel).len (jccBody cc (s.relTarget p (Instr.jccRel8 p cc rel).len (rel.signExtend 32)) s) s

/-- RET imm16 (R341). -/
def execRetImm16 (p : Prefixes) (imm : BitVec 16) (s : State) : Out :=
  runUnit (Instr.retImm16 p imm).len (retBody p imm.toNat s) s

/-- RET (R340). -/
def execRet (p : Prefixes) (s : State) : Out :=
  runUnit (Instr.ret p).len (retBody p 0 s) s

/-- CALL relz (R339). -/
def execCallRelz (p : Prefixes) (rel : Immz) (s : State) : Out :=
  runUnit (Instr.callRelz p rel).len (callBody p (Instr.callRelz p rel).len (s.relTarget p (Instr.callRelz p rel).len (Immz.sext rel)) s) s

/-- JMP relz (R338). -/
def execJmpRelz (p : Prefixes) (rel : Immz) (s : State) : Out :=
  runUnit (Instr.jmpRelz p rel).len (jmpBody (s.relTarget p (Instr.jmpRelz p rel).len (Immz.sext rel)) s) s

/-- JMP rel8 (R337). -/
def execJmpRel8 (p : Prefixes) (rel : BitVec 8) (s : State) : Out :=
  runUnit (Instr.jmpRel8 p rel).len (jmpBody (s.relTarget p (Instr.jmpRel8 p rel).len (rel.signExtend 32)) s) s

/-- CALL r/mv (R345). -/
def execCallRmv (p : Prefixes) (rm : Rm) (s : State) : Out :=
  runUnit (Instr.callRmv p rm).len (callRefBody p (Instr.callRmv p rm).len (rmRef p rm) s) s

/-- JMP r/mv (R342). -/
def execJmpRmv (p : Prefixes) (rm : Rm) (s : State) : Out :=
  runUnit (Instr.jmpRmv p rm).len (jmpRefBody p (rmRef p rm) s) s

/-- Jcc relz (R336). -/
def execJccRelz (p : Prefixes) (cc : Cond) (rel : Immz) (s : State) : Out :=
  runUnit (Instr.jccRelz p cc rel).len (jccBody cc (s.relTarget p (Instr.jccRelz p cc rel).len (Immz.sext rel)) s) s

end Sys2Proof.Machine
end

