-- ==== Sys2Proof/Machine/Logic.lean ====
section
/-! DEFINITION. Logic: AND, OR, XOR, TEST, NOT (42_logic.md R230 to R234). -/

namespace Sys2Proof.Machine

/-- OR r/m8, r8 (R231). -/
def execOrRm8R8 (p : Prefixes) (reg : Reg) (rm : Rm) (s : State) : Out :=
  runUnit (Instr.orRm8R8 p reg rm).len (aluBody aluOr .s8 (rmRef p rm) (s.readRef .s8 (.reg reg)) s) s

/-- OR r/mv, rv (R231). -/
def execOrRmvRv (p : Prefixes) (reg : Reg) (rm : Rm) (s : State) : Out :=
  runUnit (Instr.orRmvRv p reg rm).len (aluBody aluOr p.opSize.size (rmRef p rm) (s.readRef p.opSize.size (.reg reg)) s) s

/-- OR r8, r/m8 (R231). -/
def execOrR8Rm8 (p : Prefixes) (reg : Reg) (rm : Rm) (s : State) : Out :=
  runUnit (Instr.orR8Rm8 p reg rm).len (aluBody aluOr .s8 (.reg reg) (s.readRef .s8 (rmRef p rm)) s) s

/-- OR rv, r/mv (R231). -/
def execOrRvRmv (p : Prefixes) (reg : Reg) (rm : Rm) (s : State) : Out :=
  runUnit (Instr.orRvRmv p reg rm).len (aluBody aluOr p.opSize.size (.reg reg) (s.readRef p.opSize.size (rmRef p rm)) s) s

/-- OR AL, imm8 (R231). -/
def execOrAlImm8 (p : Prefixes) (imm : BitVec 8) (s : State) : Out :=
  runUnit (Instr.orAlImm8 p imm).len (aluBody aluOr .s8 (.reg .eax) (.ok imm) s) s

/-- OR eAX, immz (R231). -/
def execOrEaxImmz (p : Prefixes) (imm : Immz) (s : State) : Out :=
  runUnit (Instr.orEaxImmz p imm).len (aluBody aluOr p.opSize.size (.reg .eax) (.ok (immz p.opSize.size imm)) s) s

/-- AND r/m8, r8 (R230). -/
def execAndRm8R8 (p : Prefixes) (reg : Reg) (rm : Rm) (s : State) : Out :=
  runUnit (Instr.andRm8R8 p reg rm).len (aluBody aluAnd .s8 (rmRef p rm) (s.readRef .s8 (.reg reg)) s) s

/-- AND r/mv, rv (R230). -/
def execAndRmvRv (p : Prefixes) (reg : Reg) (rm : Rm) (s : State) : Out :=
  runUnit (Instr.andRmvRv p reg rm).len (aluBody aluAnd p.opSize.size (rmRef p rm) (s.readRef p.opSize.size (.reg reg)) s) s

/-- AND r8, r/m8 (R230). -/
def execAndR8Rm8 (p : Prefixes) (reg : Reg) (rm : Rm) (s : State) : Out :=
  runUnit (Instr.andR8Rm8 p reg rm).len (aluBody aluAnd .s8 (.reg reg) (s.readRef .s8 (rmRef p rm)) s) s

/-- AND rv, r/mv (R230). -/
def execAndRvRmv (p : Prefixes) (reg : Reg) (rm : Rm) (s : State) : Out :=
  runUnit (Instr.andRvRmv p reg rm).len (aluBody aluAnd p.opSize.size (.reg reg) (s.readRef p.opSize.size (rmRef p rm)) s) s

/-- AND AL, imm8 (R230). -/
def execAndAlImm8 (p : Prefixes) (imm : BitVec 8) (s : State) : Out :=
  runUnit (Instr.andAlImm8 p imm).len (aluBody aluAnd .s8 (.reg .eax) (.ok imm) s) s

/-- AND eAX, immz (R230). -/
def execAndEaxImmz (p : Prefixes) (imm : Immz) (s : State) : Out :=
  runUnit (Instr.andEaxImmz p imm).len (aluBody aluAnd p.opSize.size (.reg .eax) (.ok (immz p.opSize.size imm)) s) s

/-- XOR r/m8, r8 (R232). -/
def execXorRm8R8 (p : Prefixes) (reg : Reg) (rm : Rm) (s : State) : Out :=
  runUnit (Instr.xorRm8R8 p reg rm).len (aluBody aluXor .s8 (rmRef p rm) (s.readRef .s8 (.reg reg)) s) s

/-- XOR r/mv, rv (R232). -/
def execXorRmvRv (p : Prefixes) (reg : Reg) (rm : Rm) (s : State) : Out :=
  runUnit (Instr.xorRmvRv p reg rm).len (aluBody aluXor p.opSize.size (rmRef p rm) (s.readRef p.opSize.size (.reg reg)) s) s

/-- XOR r8, r/m8 (R232). -/
def execXorR8Rm8 (p : Prefixes) (reg : Reg) (rm : Rm) (s : State) : Out :=
  runUnit (Instr.xorR8Rm8 p reg rm).len (aluBody aluXor .s8 (.reg reg) (s.readRef .s8 (rmRef p rm)) s) s

/-- XOR rv, r/mv (R232). -/
def execXorRvRmv (p : Prefixes) (reg : Reg) (rm : Rm) (s : State) : Out :=
  runUnit (Instr.xorRvRmv p reg rm).len (aluBody aluXor p.opSize.size (.reg reg) (s.readRef p.opSize.size (rmRef p rm)) s) s

/-- XOR AL, imm8 (R232). -/
def execXorAlImm8 (p : Prefixes) (imm : BitVec 8) (s : State) : Out :=
  runUnit (Instr.xorAlImm8 p imm).len (aluBody aluXor .s8 (.reg .eax) (.ok imm) s) s

/-- XOR eAX, immz (R232). -/
def execXorEaxImmz (p : Prefixes) (imm : Immz) (s : State) : Out :=
  runUnit (Instr.xorEaxImmz p imm).len (aluBody aluXor p.opSize.size (.reg .eax) (.ok (immz p.opSize.size imm)) s) s

/-- OR r/m8, imm8 (R231). -/
def execOrRm8Imm8 (p : Prefixes) (al : Opcode80) (rm : Rm) (imm : BitVec 8) (s : State) : Out :=
  runUnit (Instr.orRm8Imm8 p al rm imm).len (aluBody aluOr .s8 (rmRef p rm) (.ok imm) s) s

/-- OR r/mv, immz (R231). -/
def execOrRmvImmz (p : Prefixes) (rm : Rm) (imm : Immz) (s : State) : Out :=
  runUnit (Instr.orRmvImmz p rm imm).len (aluBody aluOr p.opSize.size (rmRef p rm) (.ok (immz p.opSize.size imm)) s) s

/-- OR r/mv, imm8 (R231). -/
def execOrRmvImm8 (p : Prefixes) (rm : Rm) (imm : BitVec 8) (s : State) : Out :=
  runUnit (Instr.orRmvImm8 p rm imm).len (aluBody aluOr p.opSize.size (rmRef p rm) (.ok (imms p.opSize.size imm)) s) s

/-- AND r/m8, imm8 (R230). -/
def execAndRm8Imm8 (p : Prefixes) (al : Opcode80) (rm : Rm) (imm : BitVec 8) (s : State) : Out :=
  runUnit (Instr.andRm8Imm8 p al rm imm).len (aluBody aluAnd .s8 (rmRef p rm) (.ok imm) s) s

/-- AND r/mv, immz (R230). -/
def execAndRmvImmz (p : Prefixes) (rm : Rm) (imm : Immz) (s : State) : Out :=
  runUnit (Instr.andRmvImmz p rm imm).len (aluBody aluAnd p.opSize.size (rmRef p rm) (.ok (immz p.opSize.size imm)) s) s

/-- AND r/mv, imm8 (R230). -/
def execAndRmvImm8 (p : Prefixes) (rm : Rm) (imm : BitVec 8) (s : State) : Out :=
  runUnit (Instr.andRmvImm8 p rm imm).len (aluBody aluAnd p.opSize.size (rmRef p rm) (.ok (imms p.opSize.size imm)) s) s

/-- XOR r/m8, imm8 (R232). -/
def execXorRm8Imm8 (p : Prefixes) (al : Opcode80) (rm : Rm) (imm : BitVec 8) (s : State) : Out :=
  runUnit (Instr.xorRm8Imm8 p al rm imm).len (aluBody aluXor .s8 (rmRef p rm) (.ok imm) s) s

/-- XOR r/mv, immz (R232). -/
def execXorRmvImmz (p : Prefixes) (rm : Rm) (imm : Immz) (s : State) : Out :=
  runUnit (Instr.xorRmvImmz p rm imm).len (aluBody aluXor p.opSize.size (rmRef p rm) (.ok (immz p.opSize.size imm)) s) s

/-- XOR r/mv, imm8 (R232). -/
def execXorRmvImm8 (p : Prefixes) (rm : Rm) (imm : BitVec 8) (s : State) : Out :=
  runUnit (Instr.xorRmvImm8 p rm imm).len (aluBody aluXor p.opSize.size (rmRef p rm) (.ok (imms p.opSize.size imm)) s) s

/-- TEST r/m8, r8 (R233). -/
def execTestRm8R8 (p : Prefixes) (reg : Reg) (rm : Rm) (s : State) : Out :=
  runUnit (Instr.testRm8R8 p reg rm).len (compareBody aluAnd .s8 (rmRef p rm) (s.readRef .s8 (.reg reg)) s) s

/-- TEST r/mv, rv (R233). -/
def execTestRmvRv (p : Prefixes) (reg : Reg) (rm : Rm) (s : State) : Out :=
  runUnit (Instr.testRmvRv p reg rm).len (compareBody aluAnd p.opSize.size (rmRef p rm) (s.readRef p.opSize.size (.reg reg)) s) s

/-- TEST AL, imm8 (R233). -/
def execTestAlImm8 (p : Prefixes) (imm : BitVec 8) (s : State) : Out :=
  runUnit (Instr.testAlImm8 p imm).len (compareBody aluAnd .s8 (.reg .eax) (.ok imm) s) s

/-- TEST eAX, immz (R233). -/
def execTestEaxImmz (p : Prefixes) (imm : Immz) (s : State) : Out :=
  runUnit (Instr.testEaxImmz p imm).len (compareBody aluAnd p.opSize.size (.reg .eax) (.ok (immz p.opSize.size imm)) s) s

/-- TEST r/m8, imm8 (R233). -/
def execTestRm8Imm8 (p : Prefixes) (rm : Rm) (imm : BitVec 8) (s : State) : Out :=
  runUnit (Instr.testRm8Imm8 p rm imm).len (compareBody aluAnd .s8 (rmRef p rm) (.ok imm) s) s

/-- TEST r/mv, immz (R233). -/
def execTestRmvImmz (p : Prefixes) (rm : Rm) (imm : Immz) (s : State) : Out :=
  runUnit (Instr.testRmvImmz p rm imm).len (compareBody aluAnd p.opSize.size (rmRef p rm) (.ok (immz p.opSize.size imm)) s) s

/-- NOT r/m8 (R234). -/
def execNotRm8 (p : Prefixes) (rm : Rm) (s : State) : Out :=
  runUnit (Instr.notRm8 p rm).len (unaryBody aluNot .s8 (rmRef p rm) s) s

/-- NOT r/mv (R234). -/
def execNotRmv (p : Prefixes) (rm : Rm) (s : State) : Out :=
  runUnit (Instr.notRmv p rm).len (unaryBody aluNot p.opSize.size (rmRef p rm) s) s

end Sys2Proof.Machine
end

