-- ==== Sys2Proof/Machine/Misc.lean ====
section
/-! DEFINITION. Misc: CLC, STC, CMC, NOP, HLT (47_flag_misc.md R360 to R364) and UD2 (30_encoding.md R142). -/

namespace Sys2Proof.Machine

/-- HLT: #GP(0) outside privilege level 0 (R364; 60_exceptions.md R402). -/
def hltBody (s : State) : Except Stop Effect :=
  if s.mode = .v86 ∨ (s.mode = .prot ∧ s.cpl ≠ 0) then .error (.trap 13 (some 0))
  else .ok { Effect.start s with tag := .halt }

/-- NOP (R363). -/
def execNop (p : Prefixes) (s : State) : Out :=
  runUnit (Instr.nop p).len (.ok (Effect.start s)) s

/-- HLT (R364). -/
def execHlt (p : Prefixes) (s : State) : Out :=
  runUnit (Instr.hlt p).len (hltBody s) s

/-- CMC (R362). -/
def execCmc (p : Prefixes) (s : State) : Out :=
  runUnit (Instr.cmc p).len (flagBody { s.flags with cf := !s.flags.cf } s) s

/-- CLC (R360). -/
def execClc (p : Prefixes) (s : State) : Out :=
  runUnit (Instr.clc p).len (flagBody { s.flags with cf := false } s) s

/-- STC (R361). -/
def execStc (p : Prefixes) (s : State) : Out :=
  runUnit (Instr.stc p).len (flagBody { s.flags with cf := true } s) s

/-- UD2: always the decode fault Reserved, #UD (30_encoding.md R142). No unit exists; met at a block's
first instruction it is the block's result, the state unchanged (40_unit_protocol.md R180, R183;
notes/assumptions/10.md). -/
def execUd2 (_p : Prefixes) (s : State) : Out := .next (s.decodeFault .reserved)

end Sys2Proof.Machine
end

