-- ==== Sys2Proof/Machine/Move.lean ====
section
/-! DEFINITION. Move: MOV, LEA, MOVZX, MOVSX, XCHG, SETcc (45_data_move.md R300 to R308, R323). None writes a flag. -/

namespace Sys2Proof.Machine

/-- LEA: the offset alone, no access (R304). -/
def leaBody (z : Size) (dst : Reg) (ea : EA) (s : State) : Except Stop Effect :=
  .ok { Effect.start s with gpr := s.gpr.setView z dst ((ea.off s.gpr).setWidth z.bits) }

/-- MOVZX: read at width S, extend to 32, truncate to OS (R305). -/
def movzxBody (z : Size) (dst : Reg) (from_ : Size) (src : Ref) (s : State) : Except Stop Effect := do
  let v ← s.readRef from_ src
  .ok { Effect.start s with gpr := s.gpr.setView z dst ((v.setWidth 32).setWidth z.bits) }

/-- MOVSX: read at width S, sign-extend to 32, truncate to OS (R306). -/
def movsxBody (z : Size) (dst : Reg) (from_ : Size) (src : Ref) (s : State) : Except Stop Effect := do
  let v ← s.readRef from_ src
  .ok { Effect.start s with gpr := s.gpr.setView z dst ((v.signExtend 32).setWidth z.bits) }

/-- XCHG: both operands read, then the first written, then the register (R307, R308). -/
def xchgBody (z : Size) (op1 : Ref) (op2 : Reg) (s : State) : Except Stop Effect := do
  let a ← s.readRef z op1
  let b ← s.readRef z (.reg op2)
  let e ← s.writeRef z op1 b (Effect.start s)
  s.writeRef z (.reg op2) a e

/-- The byte SETcc writes (R323). -/
def condByte (f : Flags) (cc : Cond) : Byte := if Cond.holds f cc then 1 else 0

/-- XCHG r/m8, r8 (R307). -/
def execXchgRm8R8 (p : Prefixes) (reg : Reg) (rm : Rm) (s : State) : Out :=
  runUnit (Instr.xchgRm8R8 p reg rm).len (xchgBody .s8 (rmRef p rm) reg s) s

/-- XCHG r/mv, rv (R307). -/
def execXchgRmvRv (p : Prefixes) (reg : Reg) (rm : Rm) (s : State) : Out :=
  runUnit (Instr.xchgRmvRv p reg rm).len (xchgBody p.opSize.size (rmRef p rm) reg s) s

/-- MOV r/m8, r8 (R300). -/
def execMovRm8R8 (p : Prefixes) (reg : Reg) (rm : Rm) (s : State) : Out :=
  runUnit (Instr.movRm8R8 p reg rm).len (moveBody .s8 (rmRef p rm) (s.readRef .s8 (.reg reg)) s) s

/-- MOV r/mv, rv (R300). -/
def execMovRmvRv (p : Prefixes) (reg : Reg) (rm : Rm) (s : State) : Out :=
  runUnit (Instr.movRmvRv p reg rm).len (moveBody p.opSize.size (rmRef p rm) (s.readRef p.opSize.size (.reg reg)) s) s

/-- MOV r8, r/m8 (R300). -/
def execMovR8Rm8 (p : Prefixes) (reg : Reg) (rm : Rm) (s : State) : Out :=
  runUnit (Instr.movR8Rm8 p reg rm).len (moveBody .s8 (.reg reg) (s.readRef .s8 (rmRef p rm)) s) s

/-- MOV rv, r/mv (R300). -/
def execMovRvRmv (p : Prefixes) (reg : Reg) (rm : Rm) (s : State) : Out :=
  runUnit (Instr.movRvRmv p reg rm).len (moveBody p.opSize.size (.reg reg) (s.readRef p.opSize.size (rmRef p rm)) s) s

/-- LEA rv, m (R304). -/
def execLeaRvM (p : Prefixes) (reg : Reg) (m : MemForm) (s : State) : Out :=
  runUnit (Instr.leaRvM p reg m).len (leaBody p.opSize.size reg (MemForm.ea m) s) s

/-- XCHG eAX, eCX (R308). -/
def execXchgEaxEcx (p : Prefixes) (s : State) : Out :=
  runUnit (Instr.xchgEaxEcx p).len (xchgBody p.opSize.size (.reg .eax) .ecx s) s

/-- XCHG eAX, eDX (R308). -/
def execXchgEaxEdx (p : Prefixes) (s : State) : Out :=
  runUnit (Instr.xchgEaxEdx p).len (xchgBody p.opSize.size (.reg .eax) .edx s) s

/-- XCHG eAX, eBX (R308). -/
def execXchgEaxEbx (p : Prefixes) (s : State) : Out :=
  runUnit (Instr.xchgEaxEbx p).len (xchgBody p.opSize.size (.reg .eax) .ebx s) s

/-- XCHG eAX, eSP (R308). -/
def execXchgEaxEsp (p : Prefixes) (s : State) : Out :=
  runUnit (Instr.xchgEaxEsp p).len (xchgBody p.opSize.size (.reg .eax) .esp s) s

/-- XCHG eAX, eBP (R308). -/
def execXchgEaxEbp (p : Prefixes) (s : State) : Out :=
  runUnit (Instr.xchgEaxEbp p).len (xchgBody p.opSize.size (.reg .eax) .ebp s) s

/-- XCHG eAX, eSI (R308). -/
def execXchgEaxEsi (p : Prefixes) (s : State) : Out :=
  runUnit (Instr.xchgEaxEsi p).len (xchgBody p.opSize.size (.reg .eax) .esi s) s

/-- XCHG eAX, eDI (R308). -/
def execXchgEaxEdi (p : Prefixes) (s : State) : Out :=
  runUnit (Instr.xchgEaxEdi p).len (xchgBody p.opSize.size (.reg .eax) .edi s) s

/-- MOV AL, moffs8 (R303). -/
def execMovAlMoffs8 (p : Prefixes) (off : Immz) (s : State) : Out :=
  runUnit (Instr.movAlMoffs8 p off).len (moveBody .s8 (.reg .eax) (s.readRef .s8 (moffsRef p off)) s) s

/-- MOV eAX, moffsv (R303). -/
def execMovEaxMoffsv (p : Prefixes) (off : Immz) (s : State) : Out :=
  runUnit (Instr.movEaxMoffsv p off).len (moveBody p.opSize.size (.reg .eax) (s.readRef p.opSize.size (moffsRef p off)) s) s

/-- MOV moffs8, AL (R303). -/
def execMovMoffs8Al (p : Prefixes) (off : Immz) (s : State) : Out :=
  runUnit (Instr.movMoffs8Al p off).len (moveBody .s8 (moffsRef p off) (s.readRef .s8 (.reg .eax)) s) s

/-- MOV moffsv, eAX (R303). -/
def execMovMoffsvEax (p : Prefixes) (off : Immz) (s : State) : Out :=
  runUnit (Instr.movMoffsvEax p off).len (moveBody p.opSize.size (moffsRef p off) (s.readRef p.opSize.size (.reg .eax)) s) s

/-- MOV r8, imm8 (R301). -/
def execMovR8Imm8 (p : Prefixes) (r : Reg) (imm : BitVec 8) (s : State) : Out :=
  runUnit (Instr.movR8Imm8 p r imm).len (moveBody .s8 (.reg r) (.ok imm) s) s

/-- MOV rv, immz (R301). -/
def execMovRvImmz (p : Prefixes) (r : Reg) (imm : Immz) (s : State) : Out :=
  runUnit (Instr.movRvImmz p r imm).len (moveBody p.opSize.size (.reg r) (.ok (immz p.opSize.size imm)) s) s

/-- MOV r/m8, imm8 (R302). -/
def execMovRm8Imm8 (p : Prefixes) (rm : Rm) (imm : BitVec 8) (s : State) : Out :=
  runUnit (Instr.movRm8Imm8 p rm imm).len (moveBody .s8 (rmRef p rm) (.ok imm) s) s

/-- MOV r/mv, immz (R302). -/
def execMovRmvImmz (p : Prefixes) (rm : Rm) (imm : Immz) (s : State) : Out :=
  runUnit (Instr.movRmvImmz p rm imm).len (moveBody p.opSize.size (rmRef p rm) (.ok (immz p.opSize.size imm)) s) s

/-- SETcc r/m8 (R323). -/
def execSetccRm8 (p : Prefixes) (cc : Cond) (ext : BitVec 3) (rm : Rm) (s : State) : Out :=
  runUnit (Instr.setccRm8 p cc ext rm).len (moveBody .s8 (rmRef p rm) (.ok (condByte s.flags cc)) s) s

/-- MOVZX rv, r/m8 (R305). -/
def execMovzxRvRm8 (p : Prefixes) (reg : Reg) (rm : Rm) (s : State) : Out :=
  runUnit (Instr.movzxRvRm8 p reg rm).len (movzxBody p.opSize.size reg .s8 (rmRef p rm) s) s

/-- MOVZX rv, r/m16 (R305). -/
def execMovzxRvRm16 (p : Prefixes) (reg : Reg) (rm : Rm) (s : State) : Out :=
  runUnit (Instr.movzxRvRm16 p reg rm).len (movzxBody p.opSize.size reg .s16 (rmRef p rm) s) s

/-- MOVSX rv, r/m8 (R306). -/
def execMovsxRvRm8 (p : Prefixes) (reg : Reg) (rm : Rm) (s : State) : Out :=
  runUnit (Instr.movsxRvRm8 p reg rm).len (movsxBody p.opSize.size reg .s8 (rmRef p rm) s) s

/-- MOVSX rv, r/m16 (R306). -/
def execMovsxRvRm16 (p : Prefixes) (reg : Reg) (rm : Rm) (s : State) : Out :=
  runUnit (Instr.movsxRvRm16 p reg rm).len (movsxBody p.opSize.size reg .s16 (rmRef p rm) s) s

end Sys2Proof.Machine
end

