-- ==== Sys2Proof/Machine/MulDiv.lean ====
section
/-! DEFINITION. MulDiv: MUL, IMUL, DIV, IDIV, CBW/CWDE, CWD/CDQ (44_muldiv.md R280 to R288). -/

namespace Sys2Proof.Machine

/-- The 2N-bit product of MUL and one-operand IMUL into AX, DX:AX or EDX:EAX (R281, R282). -/
def Gprs.setDouble (g : Gprs) (z : Size) (p : Int) : Gprs :=
  match z with
  | .s8 => g.setView .s16 .eax (BitVec.ofInt 16 p)
  | .s16 => (g.setView .s16 .eax (BitVec.ofInt 16 p)).setView .s16 .edx (BitVec.ofInt 16 (p / 2 ^ 16))
  | .s32 => (g.set .eax (BitVec.ofInt 32 p)).set .edx (BitVec.ofInt 32 (p / 2 ^ 32))

/-- The 2N-bit dividend AX, DX:AX or EDX:EAX, unsigned (R285). -/
def Gprs.dividend (g : Gprs) : Size → Nat
  | .s8 => (g.view .s16 .eax).toNat
  | .s16 => (g.view .s16 .edx).toNat * 2 ^ 16 + (g.view .s16 .eax).toNat
  | .s32 => (g.get .edx).toNat * 2 ^ 32 + (g.get .eax).toNat

/-- The quotient into AL, AX or EAX and the remainder into AH, DX or EDX (R285, R286). -/
def Gprs.setQuotRem (g : Gprs) (z : Size) (q r : Int) : Gprs :=
  match z with
  | .s8 => (g.setView .s8 .eax (BitVec.ofInt 8 q)).setView .s8 .esp (BitVec.ofInt 8 r)
  | .s16 => (g.setView .s16 .eax (BitVec.ofInt 16 q)).setView .s16 .edx (BitVec.ofInt 16 r)
  | .s32 => (g.set .eax (BitVec.ofInt 32 q)).set .edx (BitVec.ofInt 32 r)

/-- CF = OF = `ov`; SF, ZF, AF and PF are the draws d, d+1, d+2, d+3 of `MulUndef` (R280 to R283). -/
def mulFlags (ov : Bool) (d : Nat) : Flags where
  cf := ov
  of := ov
  sf := Config.freeBit d
  zf := Config.freeBit (d + 1)
  af := Config.freeBit (d + 2)
  pf := Config.freeBit (d + 3)

/-- The product does not fit in N signed bits (R282 to R284). -/
def mulOverflows (n : Nat) (p : Int) : Bool := p != (BitVec.ofInt n p).toInt

/-- MUL (R281). -/
def mulBody (z : Size) (src : Ref) (s : State) : Except Stop Effect := do
  let b ← s.readRef z src
  let p := (s.gpr.view z .eax).toNat * b.toNat
  .ok { Effect.start s with
    gpr := s.gpr.setDouble z p
    flags := mulFlags (p / 2 ^ z.bits != 0) s.draws
    draws := s.draws + 4 }

/-- IMUL, one operand (R282). -/
def imulBody (z : Size) (src : Ref) (s : State) : Except Stop Effect := do
  let b ← s.readRef z src
  let p := (s.gpr.view z .eax).toInt * b.toInt
  .ok { Effect.start s with
    gpr := s.gpr.setDouble z p
    flags := mulFlags (mulOverflows z.bits p) s.draws
    draws := s.draws + 4 }

/-- IMUL, two operands (R283). -/
def imul2Body (z : Size) (dst : Reg) (src : Ref) (s : State) : Except Stop Effect := do
  let b ← s.readRef z src
  let p := (s.gpr.view z dst).toInt * b.toInt
  .ok { Effect.start s with
    gpr := s.gpr.setView z dst (BitVec.ofInt z.bits p)
    flags := mulFlags (mulOverflows z.bits p) s.draws
    draws := s.draws + 4 }

/-- IMUL, three operands: SF, ZF, PF by the logic routine, CF = OF = overflow, AF a draw (R284;
90_conflicts.md C1). -/
def imul3Body (z : Size) (dst : Reg) (src : Ref) (imm : BitVec z.bits) (s : State) : Except Stop Effect := do
  let b ← s.readRef z src
  let p := b.toInt * imm.toInt
  let ov := mulOverflows z.bits p
  .ok { Effect.start s with
    gpr := s.gpr.setView z dst (BitVec.ofInt z.bits p)
    flags := { logicFlags (BitVec.ofInt z.bits p) s.flags with
      cf := ov, of := ov, af := Config.freeBit s.draws }
    draws := s.draws + 1 }

/-- DIV: #DE is vector 0 without an error code (R285; 60_exceptions.md R402). -/
def divBody (z : Size) (src : Ref) (s : State) : Except Stop Effect := do
  let d ← s.readRef z src
  let n := s.gpr.dividend z
  if d.toNat = 0 then .error (.trap 0 none)
  else if 2 ^ z.bits ≤ n / d.toNat then .error (.trap 0 none)
  else .ok { Effect.start s with
    gpr := s.gpr.setQuotRem z (n / d.toNat : Nat) (n % d.toNat : Nat) }

/-- The signed reading of the 2N-bit dividend (R286). -/
def Gprs.signedDividend (g : Gprs) (z : Size) : Int := (BitVec.ofNat (2 * z.bits) (g.dividend z)).toInt

/-- IDIV: the quotient truncates toward zero, the remainder has the dividend's sign (R286;
00_scope.md R11). -/
def idivBody (z : Size) (src : Ref) (s : State) : Except Stop Effect := do
  let d ← s.readRef z src
  let n := s.gpr.signedDividend z
  let q := Int.tdiv n d.toInt
  if d.toInt = 0 then .error (.trap 0 none)
  else if q < -2 ^ (z.bits - 1) ∨ 2 ^ (z.bits - 1) - 1 < q then .error (.trap 0 none)
  else .ok { Effect.start s with gpr := s.gpr.setQuotRem z q (n - q * d.toInt) }

/-- CBW or CWDE, by OS (R287). -/
def cbwBody (z : OpSize) (s : State) : Except Stop Effect :=
  match z with
  | .w16 => .ok { Effect.start s with
      gpr := s.gpr.setView .s16 .eax ((s.gpr.view .s8 .eax).signExtend 16) }
  | .w32 => .ok { Effect.start s with
      gpr := s.gpr.set .eax ((s.gpr.view .s16 .eax).signExtend 32) }

/-- CWD or CDQ, by OS (R288). -/
def cwdBody (z : OpSize) (s : State) : Except Stop Effect :=
  match z with
  | .w16 => .ok { Effect.start s with
      gpr := s.gpr.setView .s16 .edx (if (s.gpr.view .s16 .eax).msb then 0xFFFF#16 else 0#16) }
  | .w32 => .ok { Effect.start s with
      gpr := s.gpr.set .edx (if (s.gpr.get .eax).msb then 0xFFFFFFFF else 0) }

/-- IMUL rv, r/mv, immz (R284). -/
def execImulRvRmvImmz (p : Prefixes) (reg : Reg) (rm : Rm) (imm : Immz) (s : State) : Out :=
  runUnit (Instr.imulRvRmvImmz p reg rm imm).len (imul3Body p.opSize.size reg (rmRef p rm) (immz p.opSize.size imm) s) s

/-- IMUL rv, r/mv, imm8 (R284). -/
def execImulRvRmvImm8 (p : Prefixes) (reg : Reg) (rm : Rm) (imm : BitVec 8) (s : State) : Out :=
  runUnit (Instr.imulRvRmvImm8 p reg rm imm).len (imul3Body p.opSize.size reg (rmRef p rm) (imms p.opSize.size imm) s) s

/-- CBW/CWDE (R287). -/
def execCbwCwde (p : Prefixes) (s : State) : Out :=
  runUnit (Instr.cbwCwde p).len (cbwBody p.opSize s) s

/-- CWD/CDQ (R288). -/
def execCwdCdq (p : Prefixes) (s : State) : Out :=
  runUnit (Instr.cwdCdq p).len (cwdBody p.opSize s) s

/-- MUL r/m8 (R281). -/
def execMulRm8 (p : Prefixes) (rm : Rm) (s : State) : Out :=
  runUnit (Instr.mulRm8 p rm).len (mulBody .s8 (rmRef p rm) s) s

/-- MUL r/mv (R281). -/
def execMulRmv (p : Prefixes) (rm : Rm) (s : State) : Out :=
  runUnit (Instr.mulRmv p rm).len (mulBody p.opSize.size (rmRef p rm) s) s

/-- IMUL r/m8 (R282). -/
def execImulRm8 (p : Prefixes) (rm : Rm) (s : State) : Out :=
  runUnit (Instr.imulRm8 p rm).len (imulBody .s8 (rmRef p rm) s) s

/-- IMUL r/mv (R282). -/
def execImulRmv (p : Prefixes) (rm : Rm) (s : State) : Out :=
  runUnit (Instr.imulRmv p rm).len (imulBody p.opSize.size (rmRef p rm) s) s

/-- DIV r/m8 (R285). -/
def execDivRm8 (p : Prefixes) (rm : Rm) (s : State) : Out :=
  runUnit (Instr.divRm8 p rm).len (divBody .s8 (rmRef p rm) s) s

/-- DIV r/mv (R285). -/
def execDivRmv (p : Prefixes) (rm : Rm) (s : State) : Out :=
  runUnit (Instr.divRmv p rm).len (divBody p.opSize.size (rmRef p rm) s) s

/-- IDIV r/m8 (R286). -/
def execIdivRm8 (p : Prefixes) (rm : Rm) (s : State) : Out :=
  runUnit (Instr.idivRm8 p rm).len (idivBody .s8 (rmRef p rm) s) s

/-- IDIV r/mv (R286). -/
def execIdivRmv (p : Prefixes) (rm : Rm) (s : State) : Out :=
  runUnit (Instr.idivRmv p rm).len (idivBody p.opSize.size (rmRef p rm) s) s

/-- IMUL rv, r/mv (R283). -/
def execImulRvRmv (p : Prefixes) (reg : Reg) (rm : Rm) (s : State) : Out :=
  runUnit (Instr.imulRvRmv p reg rm).len (imul2Body p.opSize.size reg (rmRef p rm) s) s

end Sys2Proof.Machine
end

