-- ==== Sys2Proof/Machine/Shift.lean ====
section
/-! DEFINITION. Shift: ROL, ROR, RCL, RCR, SHL, SHR, SAR (43_shift_rotate.md R250 to R257). -/

namespace Sys2Proof.Machine

/-- What a shift or rotate leaves when it changes anything: the value written to dst, the flags, and the
draw counter. -/
structure Shifted (n : Nat) where
  value : BitVec n
  flags : Flags
  draws : Nat
  deriving DecidableEq, Repr

/-- A shift or rotate at any width, from the parameters, the flags, the draw counter, the operand and the
RAW count; none where it writes nothing and changes no flag. -/
abbrev ShiftOp := Params → (n : Nat) → Flags → Nat → BitVec n → Nat → Option (Shifted n)

/-- The masked count `m = c & 0x1F` (R250). -/
def maskCount (c : Nat) : Nat := c % 32

/-- The masked count of RCL and RCR (R250; 90_conflicts.md C2). -/
def maskCarryCount (q : Params) (c : Nat) : Nat := if q.rotCountMask5 then c % 32 else c

/-- OF is staged only when the masked count is 1 (R251 to R257; 90_conflicts.md C4). -/
def ofIfOne (m : Nat) (v old : Bool) : Bool := if m = 1 then v else old

/-- ROL (R251). -/
def rol : ShiftOp := fun _ n f d a c =>
  let m := maskCount c
  if m = 0 then none
  else
    let k := m % n
    let r := (a <<< k) ||| (a >>> (n - k))
    let cf := r.getLsbD 0
    some ⟨r, { f with cf := cf, of := ofIfOne m (r.msb ^^ cf) f.of }, d⟩

/-- ROR (R252). -/
def ror : ShiftOp := fun _ n f d a c =>
  let m := maskCount c
  if m = 0 then none
  else
    let k := m % n
    let r := (a >>> k) ||| (a <<< (n - k))
    some ⟨r, { f with
      cf := r.getLsbD (n - 1)
      of := ofIfOne m (r.getLsbD (n - 1) ^^ r.getLsbD (n - 2)) f.of }, d⟩

/-- CF above the operand: the N+1 bits that RCL and RCR rotate (R253, R254). -/
def withCarry {n : Nat} (cf : Bool) (a : BitVec n) : Nat := cf.toNat * 2 ^ n + a.toNat

/-- RCL (R253). -/
def rcl : ShiftOp := fun q n f d a c =>
  let m := maskCarryCount q c
  let k := m % (n + 1)
  if k = 0 then none
  else
    let t := withCarry f.cf a
    let u := ((t <<< k) ||| (t >>> (n + 1 - k))) % 2 ^ (n + 1)
    let r := BitVec.ofNat n u
    some ⟨r, { f with cf := u.testBit n, of := ofIfOne m (r.msb ^^ u.testBit n) f.of }, d⟩

/-- RCR (R254). -/
def rcr : ShiftOp := fun q n f d a c =>
  let m := maskCarryCount q c
  let k := m % (n + 1)
  if k = 0 then none
  else
    let t := withCarry f.cf a
    let u := ((t >>> k) ||| (t <<< (n + 1 - k))) % 2 ^ (n + 1)
    let r := BitVec.ofNat n u
    some ⟨r, { f with
      cf := u.testBit n
      of := ofIfOne m (r.getLsbD (n - 1) ^^ r.getLsbD (n - 2)) f.of }, d⟩

/-- CF of SHL and SHR: the bit shifted out when m <= N, else the draw `ShiftUndef` (R255, R256). -/
def shiftCarry (n m d : Nat) (out : Bool) : Bool := if m ≤ n then out else Config.freeBit d

/-- The draw counter after SHL or SHR: one draw is used when m > N. -/
def shiftDraws (n m d : Nat) : Nat := if m ≤ n then d else d + 1

/-- SHL and its alias SAL (R255). -/
def shl : ShiftOp := fun _ n f d a c =>
  let m := maskCount c
  if m = 0 then none
  else
    let w := a.toNat <<< m
    let r := BitVec.ofNat n w
    let cf := shiftCarry n m d (w.testBit n)
    some ⟨r, szp r { f with cf := cf, of := ofIfOne m (r.msb ^^ cf) f.of }, shiftDraws n m d⟩

/-- SHR (R256). -/
def shr : ShiftOp := fun _ n f d a c =>
  let m := maskCount c
  if m = 0 then none
  else
    let r := BitVec.ofNat n (a.toNat >>> m)
    some ⟨r, szp r { f with
      cf := shiftCarry n m d (a.getLsbD (m - 1))
      of := ofIfOne m a.msb f.of }, shiftDraws n m d⟩

/-- SAR: floor division by 2^m (R257). -/
def sar : ShiftOp := fun _ n f d a c =>
  let m := maskCount c
  if m = 0 then none
  else
    let r := BitVec.ofInt n (a.toInt / 2 ^ m)
    some ⟨r, szp r { f with
      cf := if m ≤ n then a.getLsbD (m - 1) else a.msb
      of := ofIfOne m false f.of }, d⟩

/-- The unit of group 2: dst is always read, and written only when the operation says so (R250). -/
def shiftBody (op : ShiftOp) (z : Size) (dst : Ref) (c : Nat) (s : State) : Except Stop Effect := do
  let a ← s.readRef z dst
  match op s.params z.bits s.flags s.draws a c with
  | none => .ok (Effect.start s)
  | some o => s.writeRef z dst o.value { Effect.start s with flags := o.flags, draws := o.draws }

/-- The count in CL, read when the unit executes (R250). -/
def State.clCount (s : State) : Nat := (s.gpr.view .s8 .ecx).toNat

/-- ROL r/m8, imm8 (R251). -/
def execRolRm8Imm8 (p : Prefixes) (rm : Rm) (imm : BitVec 8) (s : State) : Out :=
  runUnit (Instr.rolRm8Imm8 p rm imm).len (shiftBody rol .s8 (rmRef p rm) imm.toNat s) s

/-- ROL r/mv, imm8 (R251). -/
def execRolRmvImm8 (p : Prefixes) (rm : Rm) (imm : BitVec 8) (s : State) : Out :=
  runUnit (Instr.rolRmvImm8 p rm imm).len (shiftBody rol p.opSize.size (rmRef p rm) imm.toNat s) s

/-- ROL r/m8, 1 (R251). -/
def execRolRm8One (p : Prefixes) (rm : Rm) (s : State) : Out :=
  runUnit (Instr.rolRm8One p rm).len (shiftBody rol .s8 (rmRef p rm) 1 s) s

/-- ROL r/mv, 1 (R251). -/
def execRolRmvOne (p : Prefixes) (rm : Rm) (s : State) : Out :=
  runUnit (Instr.rolRmvOne p rm).len (shiftBody rol p.opSize.size (rmRef p rm) 1 s) s

/-- ROL r/m8, CL (R251). -/
def execRolRm8Cl (p : Prefixes) (rm : Rm) (s : State) : Out :=
  runUnit (Instr.rolRm8Cl p rm).len (shiftBody rol .s8 (rmRef p rm) s.clCount s) s

/-- ROL r/mv, CL (R251). -/
def execRolRmvCl (p : Prefixes) (rm : Rm) (s : State) : Out :=
  runUnit (Instr.rolRmvCl p rm).len (shiftBody rol p.opSize.size (rmRef p rm) s.clCount s) s

/-- ROR r/m8, imm8 (R252). -/
def execRorRm8Imm8 (p : Prefixes) (rm : Rm) (imm : BitVec 8) (s : State) : Out :=
  runUnit (Instr.rorRm8Imm8 p rm imm).len (shiftBody ror .s8 (rmRef p rm) imm.toNat s) s

/-- ROR r/mv, imm8 (R252). -/
def execRorRmvImm8 (p : Prefixes) (rm : Rm) (imm : BitVec 8) (s : State) : Out :=
  runUnit (Instr.rorRmvImm8 p rm imm).len (shiftBody ror p.opSize.size (rmRef p rm) imm.toNat s) s

/-- ROR r/m8, 1 (R252). -/
def execRorRm8One (p : Prefixes) (rm : Rm) (s : State) : Out :=
  runUnit (Instr.rorRm8One p rm).len (shiftBody ror .s8 (rmRef p rm) 1 s) s

/-- ROR r/mv, 1 (R252). -/
def execRorRmvOne (p : Prefixes) (rm : Rm) (s : State) : Out :=
  runUnit (Instr.rorRmvOne p rm).len (shiftBody ror p.opSize.size (rmRef p rm) 1 s) s

/-- ROR r/m8, CL (R252). -/
def execRorRm8Cl (p : Prefixes) (rm : Rm) (s : State) : Out :=
  runUnit (Instr.rorRm8Cl p rm).len (shiftBody ror .s8 (rmRef p rm) s.clCount s) s

/-- ROR r/mv, CL (R252). -/
def execRorRmvCl (p : Prefixes) (rm : Rm) (s : State) : Out :=
  runUnit (Instr.rorRmvCl p rm).len (shiftBody ror p.opSize.size (rmRef p rm) s.clCount s) s

/-- RCL r/m8, imm8 (R253). -/
def execRclRm8Imm8 (p : Prefixes) (rm : Rm) (imm : BitVec 8) (s : State) : Out :=
  runUnit (Instr.rclRm8Imm8 p rm imm).len (shiftBody rcl .s8 (rmRef p rm) imm.toNat s) s

/-- RCL r/mv, imm8 (R253). -/
def execRclRmvImm8 (p : Prefixes) (rm : Rm) (imm : BitVec 8) (s : State) : Out :=
  runUnit (Instr.rclRmvImm8 p rm imm).len (shiftBody rcl p.opSize.size (rmRef p rm) imm.toNat s) s

/-- RCL r/m8, 1 (R253). -/
def execRclRm8One (p : Prefixes) (rm : Rm) (s : State) : Out :=
  runUnit (Instr.rclRm8One p rm).len (shiftBody rcl .s8 (rmRef p rm) 1 s) s

/-- RCL r/mv, 1 (R253). -/
def execRclRmvOne (p : Prefixes) (rm : Rm) (s : State) : Out :=
  runUnit (Instr.rclRmvOne p rm).len (shiftBody rcl p.opSize.size (rmRef p rm) 1 s) s

/-- RCL r/m8, CL (R253). -/
def execRclRm8Cl (p : Prefixes) (rm : Rm) (s : State) : Out :=
  runUnit (Instr.rclRm8Cl p rm).len (shiftBody rcl .s8 (rmRef p rm) s.clCount s) s

/-- RCL r/mv, CL (R253). -/
def execRclRmvCl (p : Prefixes) (rm : Rm) (s : State) : Out :=
  runUnit (Instr.rclRmvCl p rm).len (shiftBody rcl p.opSize.size (rmRef p rm) s.clCount s) s

/-- RCR r/m8, imm8 (R254). -/
def execRcrRm8Imm8 (p : Prefixes) (rm : Rm) (imm : BitVec 8) (s : State) : Out :=
  runUnit (Instr.rcrRm8Imm8 p rm imm).len (shiftBody rcr .s8 (rmRef p rm) imm.toNat s) s

/-- RCR r/mv, imm8 (R254). -/
def execRcrRmvImm8 (p : Prefixes) (rm : Rm) (imm : BitVec 8) (s : State) : Out :=
  runUnit (Instr.rcrRmvImm8 p rm imm).len (shiftBody rcr p.opSize.size (rmRef p rm) imm.toNat s) s

/-- RCR r/m8, 1 (R254). -/
def execRcrRm8One (p : Prefixes) (rm : Rm) (s : State) : Out :=
  runUnit (Instr.rcrRm8One p rm).len (shiftBody rcr .s8 (rmRef p rm) 1 s) s

/-- RCR r/mv, 1 (R254). -/
def execRcrRmvOne (p : Prefixes) (rm : Rm) (s : State) : Out :=
  runUnit (Instr.rcrRmvOne p rm).len (shiftBody rcr p.opSize.size (rmRef p rm) 1 s) s

/-- RCR r/m8, CL (R254). -/
def execRcrRm8Cl (p : Prefixes) (rm : Rm) (s : State) : Out :=
  runUnit (Instr.rcrRm8Cl p rm).len (shiftBody rcr .s8 (rmRef p rm) s.clCount s) s

/-- RCR r/mv, CL (R254). -/
def execRcrRmvCl (p : Prefixes) (rm : Rm) (s : State) : Out :=
  runUnit (Instr.rcrRmvCl p rm).len (shiftBody rcr p.opSize.size (rmRef p rm) s.clCount s) s

/-- SHL r/m8, imm8 (R255). -/
def execShlRm8Imm8 (p : Prefixes) (rm : Rm) (imm : BitVec 8) (s : State) : Out :=
  runUnit (Instr.shlRm8Imm8 p rm imm).len (shiftBody shl .s8 (rmRef p rm) imm.toNat s) s

/-- SHL r/mv, imm8 (R255). -/
def execShlRmvImm8 (p : Prefixes) (rm : Rm) (imm : BitVec 8) (s : State) : Out :=
  runUnit (Instr.shlRmvImm8 p rm imm).len (shiftBody shl p.opSize.size (rmRef p rm) imm.toNat s) s

/-- SHL r/m8, 1 (R255). -/
def execShlRm8One (p : Prefixes) (rm : Rm) (s : State) : Out :=
  runUnit (Instr.shlRm8One p rm).len (shiftBody shl .s8 (rmRef p rm) 1 s) s

/-- SHL r/mv, 1 (R255). -/
def execShlRmvOne (p : Prefixes) (rm : Rm) (s : State) : Out :=
  runUnit (Instr.shlRmvOne p rm).len (shiftBody shl p.opSize.size (rmRef p rm) 1 s) s

/-- SHL r/m8, CL (R255). -/
def execShlRm8Cl (p : Prefixes) (rm : Rm) (s : State) : Out :=
  runUnit (Instr.shlRm8Cl p rm).len (shiftBody shl .s8 (rmRef p rm) s.clCount s) s

/-- SHL r/mv, CL (R255). -/
def execShlRmvCl (p : Prefixes) (rm : Rm) (s : State) : Out :=
  runUnit (Instr.shlRmvCl p rm).len (shiftBody shl p.opSize.size (rmRef p rm) s.clCount s) s

/-- SHR r/m8, imm8 (R256). -/
def execShrRm8Imm8 (p : Prefixes) (rm : Rm) (imm : BitVec 8) (s : State) : Out :=
  runUnit (Instr.shrRm8Imm8 p rm imm).len (shiftBody shr .s8 (rmRef p rm) imm.toNat s) s

/-- SHR r/mv, imm8 (R256). -/
def execShrRmvImm8 (p : Prefixes) (rm : Rm) (imm : BitVec 8) (s : State) : Out :=
  runUnit (Instr.shrRmvImm8 p rm imm).len (shiftBody shr p.opSize.size (rmRef p rm) imm.toNat s) s

/-- SHR r/m8, 1 (R256). -/
def execShrRm8One (p : Prefixes) (rm : Rm) (s : State) : Out :=
  runUnit (Instr.shrRm8One p rm).len (shiftBody shr .s8 (rmRef p rm) 1 s) s

/-- SHR r/mv, 1 (R256). -/
def execShrRmvOne (p : Prefixes) (rm : Rm) (s : State) : Out :=
  runUnit (Instr.shrRmvOne p rm).len (shiftBody shr p.opSize.size (rmRef p rm) 1 s) s

/-- SHR r/m8, CL (R256). -/
def execShrRm8Cl (p : Prefixes) (rm : Rm) (s : State) : Out :=
  runUnit (Instr.shrRm8Cl p rm).len (shiftBody shr .s8 (rmRef p rm) s.clCount s) s

/-- SHR r/mv, CL (R256). -/
def execShrRmvCl (p : Prefixes) (rm : Rm) (s : State) : Out :=
  runUnit (Instr.shrRmvCl p rm).len (shiftBody shr p.opSize.size (rmRef p rm) s.clCount s) s

/-- SAR r/m8, imm8 (R257). -/
def execSarRm8Imm8 (p : Prefixes) (rm : Rm) (imm : BitVec 8) (s : State) : Out :=
  runUnit (Instr.sarRm8Imm8 p rm imm).len (shiftBody sar .s8 (rmRef p rm) imm.toNat s) s

/-- SAR r/mv, imm8 (R257). -/
def execSarRmvImm8 (p : Prefixes) (rm : Rm) (imm : BitVec 8) (s : State) : Out :=
  runUnit (Instr.sarRmvImm8 p rm imm).len (shiftBody sar p.opSize.size (rmRef p rm) imm.toNat s) s

/-- SAR r/m8, 1 (R257). -/
def execSarRm8One (p : Prefixes) (rm : Rm) (s : State) : Out :=
  runUnit (Instr.sarRm8One p rm).len (shiftBody sar .s8 (rmRef p rm) 1 s) s

/-- SAR r/mv, 1 (R257). -/
def execSarRmvOne (p : Prefixes) (rm : Rm) (s : State) : Out :=
  runUnit (Instr.sarRmvOne p rm).len (shiftBody sar p.opSize.size (rmRef p rm) 1 s) s

/-- SAR r/m8, CL (R257). -/
def execSarRm8Cl (p : Prefixes) (rm : Rm) (s : State) : Out :=
  runUnit (Instr.sarRm8Cl p rm).len (shiftBody sar .s8 (rmRef p rm) s.clCount s) s

/-- SAR r/mv, CL (R257). -/
def execSarRmvCl (p : Prefixes) (rm : Rm) (s : State) : Out :=
  runUnit (Instr.sarRmvCl p rm).len (shiftBody sar p.opSize.size (rmRef p rm) s.clCount s) s

end Sys2Proof.Machine
end

