-- ==== Sys2Proof/Machine/Stack.lean ====
section
/-! DEFINITION. Stack: PUSH, POP (45_data_move.md R318 to R322). None writes a flag. -/

namespace Sys2Proof.Machine

/-- PUSH: the value is read with the registers before the push (R319 to R321). -/
def pushBody (z : Size) (src : Except Stop (BitVec z.bits)) (s : State) : Except Stop Effect := do
  let v ← src
  s.push z v (Effect.start s)

/-- POP: the stack pointer is staged first, the register after it (R322). -/
def popBody (z : Size) (dst : Reg) (s : State) : Except Stop Effect := do
  let v ← s.popRead z
  s.writeRef z (.reg dst) v (s.setSp (s.popSp z.bytes 0) (Effect.start s))

/-- PUSH rv (R319). -/
def execPushRv (p : Prefixes) (r : Reg) (s : State) : Out :=
  runUnit (Instr.pushRv p r).len (pushBody p.opSize.size (s.readRef p.opSize.size (.reg r)) s) s

/-- POP rv (R322). -/
def execPopRv (p : Prefixes) (r : Reg) (s : State) : Out :=
  runUnit (Instr.popRv p r).len (popBody p.opSize.size r s) s

/-- PUSH immz (R320). -/
def execPushImmz (p : Prefixes) (imm : Immz) (s : State) : Out :=
  runUnit (Instr.pushImmz p imm).len (pushBody p.opSize.size (.ok (immz p.opSize.size imm)) s) s

/-- PUSH imm8 (R320). -/
def execPushImm8 (p : Prefixes) (imm : BitVec 8) (s : State) : Out :=
  runUnit (Instr.pushImm8 p imm).len (pushBody p.opSize.size (.ok (imms p.opSize.size imm)) s) s

/-- PUSH r/mv (R321). -/
def execPushRmv (p : Prefixes) (rm : Rm) (s : State) : Out :=
  runUnit (Instr.pushRmv p rm).len (pushBody p.opSize.size (s.readRef p.opSize.size (rmRef p rm)) s) s

end Sys2Proof.Machine
end

