-- ==== Sys2Proof/Machine/Dispatch.lean ====
section
/-! DEFINITION. Dispatch: `executeUnit` of the instruction i at eip (40_unit_protocol.md R165): one direct
call of a meaning per constructor. -/

namespace Sys2Proof.Machine

def exec (i : Instr) (s : State) : Host.Outcome State Fault Refusal :=
  match i with
  | .addRm8R8 p reg rm => Sys2Proof.Machine.execAddRm8R8 p reg rm s
  | .addRmvRv p reg rm => Sys2Proof.Machine.execAddRmvRv p reg rm s
  | .addR8Rm8 p reg rm => Sys2Proof.Machine.execAddR8Rm8 p reg rm s
  | .addRvRmv p reg rm => Sys2Proof.Machine.execAddRvRmv p reg rm s
  | .addAlImm8 p imm => Sys2Proof.Machine.execAddAlImm8 p imm s
  | .addEaxImmz p imm => Sys2Proof.Machine.execAddEaxImmz p imm s
  | .orRm8R8 p reg rm => Sys2Proof.Machine.execOrRm8R8 p reg rm s
  | .orRmvRv p reg rm => Sys2Proof.Machine.execOrRmvRv p reg rm s
  | .orR8Rm8 p reg rm => Sys2Proof.Machine.execOrR8Rm8 p reg rm s
  | .orRvRmv p reg rm => Sys2Proof.Machine.execOrRvRmv p reg rm s
  | .orAlImm8 p imm => Sys2Proof.Machine.execOrAlImm8 p imm s
  | .orEaxImmz p imm => Sys2Proof.Machine.execOrEaxImmz p imm s
  | .adcRm8R8 p reg rm => Sys2Proof.Machine.execAdcRm8R8 p reg rm s
  | .adcRmvRv p reg rm => Sys2Proof.Machine.execAdcRmvRv p reg rm s
  | .adcR8Rm8 p reg rm => Sys2Proof.Machine.execAdcR8Rm8 p reg rm s
  | .adcRvRmv p reg rm => Sys2Proof.Machine.execAdcRvRmv p reg rm s
  | .adcAlImm8 p imm => Sys2Proof.Machine.execAdcAlImm8 p imm s
  | .adcEaxImmz p imm => Sys2Proof.Machine.execAdcEaxImmz p imm s
  | .sbbRm8R8 p reg rm => Sys2Proof.Machine.execSbbRm8R8 p reg rm s
  | .sbbRmvRv p reg rm => Sys2Proof.Machine.execSbbRmvRv p reg rm s
  | .sbbR8Rm8 p reg rm => Sys2Proof.Machine.execSbbR8Rm8 p reg rm s
  | .sbbRvRmv p reg rm => Sys2Proof.Machine.execSbbRvRmv p reg rm s
  | .sbbAlImm8 p imm => Sys2Proof.Machine.execSbbAlImm8 p imm s
  | .sbbEaxImmz p imm => Sys2Proof.Machine.execSbbEaxImmz p imm s
  | .andRm8R8 p reg rm => Sys2Proof.Machine.execAndRm8R8 p reg rm s
  | .andRmvRv p reg rm => Sys2Proof.Machine.execAndRmvRv p reg rm s
  | .andR8Rm8 p reg rm => Sys2Proof.Machine.execAndR8Rm8 p reg rm s
  | .andRvRmv p reg rm => Sys2Proof.Machine.execAndRvRmv p reg rm s
  | .andAlImm8 p imm => Sys2Proof.Machine.execAndAlImm8 p imm s
  | .andEaxImmz p imm => Sys2Proof.Machine.execAndEaxImmz p imm s
  | .subRm8R8 p reg rm => Sys2Proof.Machine.execSubRm8R8 p reg rm s
  | .subRmvRv p reg rm => Sys2Proof.Machine.execSubRmvRv p reg rm s
  | .subR8Rm8 p reg rm => Sys2Proof.Machine.execSubR8Rm8 p reg rm s
  | .subRvRmv p reg rm => Sys2Proof.Machine.execSubRvRmv p reg rm s
  | .subAlImm8 p imm => Sys2Proof.Machine.execSubAlImm8 p imm s
  | .subEaxImmz p imm => Sys2Proof.Machine.execSubEaxImmz p imm s
  | .xorRm8R8 p reg rm => Sys2Proof.Machine.execXorRm8R8 p reg rm s
  | .xorRmvRv p reg rm => Sys2Proof.Machine.execXorRmvRv p reg rm s
  | .xorR8Rm8 p reg rm => Sys2Proof.Machine.execXorR8Rm8 p reg rm s
  | .xorRvRmv p reg rm => Sys2Proof.Machine.execXorRvRmv p reg rm s
  | .xorAlImm8 p imm => Sys2Proof.Machine.execXorAlImm8 p imm s
  | .xorEaxImmz p imm => Sys2Proof.Machine.execXorEaxImmz p imm s
  | .cmpRm8R8 p reg rm => Sys2Proof.Machine.execCmpRm8R8 p reg rm s
  | .cmpRmvRv p reg rm => Sys2Proof.Machine.execCmpRmvRv p reg rm s
  | .cmpR8Rm8 p reg rm => Sys2Proof.Machine.execCmpR8Rm8 p reg rm s
  | .cmpRvRmv p reg rm => Sys2Proof.Machine.execCmpRvRmv p reg rm s
  | .cmpAlImm8 p imm => Sys2Proof.Machine.execCmpAlImm8 p imm s
  | .cmpEaxImmz p imm => Sys2Proof.Machine.execCmpEaxImmz p imm s
  | .addRm8Imm8 p al rm imm => Sys2Proof.Machine.execAddRm8Imm8 p al rm imm s
  | .addRmvImmz p rm imm => Sys2Proof.Machine.execAddRmvImmz p rm imm s
  | .addRmvImm8 p rm imm => Sys2Proof.Machine.execAddRmvImm8 p rm imm s
  | .orRm8Imm8 p al rm imm => Sys2Proof.Machine.execOrRm8Imm8 p al rm imm s
  | .orRmvImmz p rm imm => Sys2Proof.Machine.execOrRmvImmz p rm imm s
  | .orRmvImm8 p rm imm => Sys2Proof.Machine.execOrRmvImm8 p rm imm s
  | .adcRm8Imm8 p al rm imm => Sys2Proof.Machine.execAdcRm8Imm8 p al rm imm s
  | .adcRmvImmz p rm imm => Sys2Proof.Machine.execAdcRmvImmz p rm imm s
  | .adcRmvImm8 p rm imm => Sys2Proof.Machine.execAdcRmvImm8 p rm imm s
  | .sbbRm8Imm8 p al rm imm => Sys2Proof.Machine.execSbbRm8Imm8 p al rm imm s
  | .sbbRmvImmz p rm imm => Sys2Proof.Machine.execSbbRmvImmz p rm imm s
  | .sbbRmvImm8 p rm imm => Sys2Proof.Machine.execSbbRmvImm8 p rm imm s
  | .andRm8Imm8 p al rm imm => Sys2Proof.Machine.execAndRm8Imm8 p al rm imm s
  | .andRmvImmz p rm imm => Sys2Proof.Machine.execAndRmvImmz p rm imm s
  | .andRmvImm8 p rm imm => Sys2Proof.Machine.execAndRmvImm8 p rm imm s
  | .subRm8Imm8 p al rm imm => Sys2Proof.Machine.execSubRm8Imm8 p al rm imm s
  | .subRmvImmz p rm imm => Sys2Proof.Machine.execSubRmvImmz p rm imm s
  | .subRmvImm8 p rm imm => Sys2Proof.Machine.execSubRmvImm8 p rm imm s
  | .xorRm8Imm8 p al rm imm => Sys2Proof.Machine.execXorRm8Imm8 p al rm imm s
  | .xorRmvImmz p rm imm => Sys2Proof.Machine.execXorRmvImmz p rm imm s
  | .xorRmvImm8 p rm imm => Sys2Proof.Machine.execXorRmvImm8 p rm imm s
  | .cmpRm8Imm8 p al rm imm => Sys2Proof.Machine.execCmpRm8Imm8 p al rm imm s
  | .cmpRmvImmz p rm imm => Sys2Proof.Machine.execCmpRmvImmz p rm imm s
  | .cmpRmvImm8 p rm imm => Sys2Proof.Machine.execCmpRmvImm8 p rm imm s
  | .incRv p r => Sys2Proof.Machine.execIncRv p r s
  | .decRv p r => Sys2Proof.Machine.execDecRv p r s
  | .pushRv p r => Sys2Proof.Machine.execPushRv p r s
  | .popRv p r => Sys2Proof.Machine.execPopRv p r s
  | .pushImmz p imm => Sys2Proof.Machine.execPushImmz p imm s
  | .imulRvRmvImmz p reg rm imm => Sys2Proof.Machine.execImulRvRmvImmz p reg rm imm s
  | .pushImm8 p imm => Sys2Proof.Machine.execPushImm8 p imm s
  | .imulRvRmvImm8 p reg rm imm => Sys2Proof.Machine.execImulRvRmvImm8 p reg rm imm s
  | .jccRel8 p cc rel => Sys2Proof.Machine.execJccRel8 p cc rel s
  | .testRm8R8 p reg rm => Sys2Proof.Machine.execTestRm8R8 p reg rm s
  | .testRmvRv p reg rm => Sys2Proof.Machine.execTestRmvRv p reg rm s
  | .xchgRm8R8 p reg rm => Sys2Proof.Machine.execXchgRm8R8 p reg rm s
  | .xchgRmvRv p reg rm => Sys2Proof.Machine.execXchgRmvRv p reg rm s
  | .movRm8R8 p reg rm => Sys2Proof.Machine.execMovRm8R8 p reg rm s
  | .movRmvRv p reg rm => Sys2Proof.Machine.execMovRmvRv p reg rm s
  | .movR8Rm8 p reg rm => Sys2Proof.Machine.execMovR8Rm8 p reg rm s
  | .movRvRmv p reg rm => Sys2Proof.Machine.execMovRvRmv p reg rm s
  | .leaRvM p reg m => Sys2Proof.Machine.execLeaRvM p reg m s
  | .nop p => Sys2Proof.Machine.execNop p s
  | .xchgEaxEcx p => Sys2Proof.Machine.execXchgEaxEcx p s
  | .xchgEaxEdx p => Sys2Proof.Machine.execXchgEaxEdx p s
  | .xchgEaxEbx p => Sys2Proof.Machine.execXchgEaxEbx p s
  | .xchgEaxEsp p => Sys2Proof.Machine.execXchgEaxEsp p s
  | .xchgEaxEbp p => Sys2Proof.Machine.execXchgEaxEbp p s
  | .xchgEaxEsi p => Sys2Proof.Machine.execXchgEaxEsi p s
  | .xchgEaxEdi p => Sys2Proof.Machine.execXchgEaxEdi p s
  | .cbwCwde p => Sys2Proof.Machine.execCbwCwde p s
  | .cwdCdq p => Sys2Proof.Machine.execCwdCdq p s
  | .movAlMoffs8 p off => Sys2Proof.Machine.execMovAlMoffs8 p off s
  | .movEaxMoffsv p off => Sys2Proof.Machine.execMovEaxMoffsv p off s
  | .movMoffs8Al p off => Sys2Proof.Machine.execMovMoffs8Al p off s
  | .movMoffsvEax p off => Sys2Proof.Machine.execMovMoffsvEax p off s
  | .testAlImm8 p imm => Sys2Proof.Machine.execTestAlImm8 p imm s
  | .testEaxImmz p imm => Sys2Proof.Machine.execTestEaxImmz p imm s
  | .movR8Imm8 p r imm => Sys2Proof.Machine.execMovR8Imm8 p r imm s
  | .movRvImmz p r imm => Sys2Proof.Machine.execMovRvImmz p r imm s
  | .rolRm8Imm8 p rm imm => Sys2Proof.Machine.execRolRm8Imm8 p rm imm s
  | .rolRmvImm8 p rm imm => Sys2Proof.Machine.execRolRmvImm8 p rm imm s
  | .rolRm8One p rm => Sys2Proof.Machine.execRolRm8One p rm s
  | .rolRmvOne p rm => Sys2Proof.Machine.execRolRmvOne p rm s
  | .rolRm8Cl p rm => Sys2Proof.Machine.execRolRm8Cl p rm s
  | .rolRmvCl p rm => Sys2Proof.Machine.execRolRmvCl p rm s
  | .rorRm8Imm8 p rm imm => Sys2Proof.Machine.execRorRm8Imm8 p rm imm s
  | .rorRmvImm8 p rm imm => Sys2Proof.Machine.execRorRmvImm8 p rm imm s
  | .rorRm8One p rm => Sys2Proof.Machine.execRorRm8One p rm s
  | .rorRmvOne p rm => Sys2Proof.Machine.execRorRmvOne p rm s
  | .rorRm8Cl p rm => Sys2Proof.Machine.execRorRm8Cl p rm s
  | .rorRmvCl p rm => Sys2Proof.Machine.execRorRmvCl p rm s
  | .rclRm8Imm8 p rm imm => Sys2Proof.Machine.execRclRm8Imm8 p rm imm s
  | .rclRmvImm8 p rm imm => Sys2Proof.Machine.execRclRmvImm8 p rm imm s
  | .rclRm8One p rm => Sys2Proof.Machine.execRclRm8One p rm s
  | .rclRmvOne p rm => Sys2Proof.Machine.execRclRmvOne p rm s
  | .rclRm8Cl p rm => Sys2Proof.Machine.execRclRm8Cl p rm s
  | .rclRmvCl p rm => Sys2Proof.Machine.execRclRmvCl p rm s
  | .rcrRm8Imm8 p rm imm => Sys2Proof.Machine.execRcrRm8Imm8 p rm imm s
  | .rcrRmvImm8 p rm imm => Sys2Proof.Machine.execRcrRmvImm8 p rm imm s
  | .rcrRm8One p rm => Sys2Proof.Machine.execRcrRm8One p rm s
  | .rcrRmvOne p rm => Sys2Proof.Machine.execRcrRmvOne p rm s
  | .rcrRm8Cl p rm => Sys2Proof.Machine.execRcrRm8Cl p rm s
  | .rcrRmvCl p rm => Sys2Proof.Machine.execRcrRmvCl p rm s
  | .shlRm8Imm8 p rm imm => Sys2Proof.Machine.execShlRm8Imm8 p rm imm s
  | .shlRmvImm8 p rm imm => Sys2Proof.Machine.execShlRmvImm8 p rm imm s
  | .shlRm8One p rm => Sys2Proof.Machine.execShlRm8One p rm s
  | .shlRmvOne p rm => Sys2Proof.Machine.execShlRmvOne p rm s
  | .shlRm8Cl p rm => Sys2Proof.Machine.execShlRm8Cl p rm s
  | .shlRmvCl p rm => Sys2Proof.Machine.execShlRmvCl p rm s
  | .shrRm8Imm8 p rm imm => Sys2Proof.Machine.execShrRm8Imm8 p rm imm s
  | .shrRmvImm8 p rm imm => Sys2Proof.Machine.execShrRmvImm8 p rm imm s
  | .shrRm8One p rm => Sys2Proof.Machine.execShrRm8One p rm s
  | .shrRmvOne p rm => Sys2Proof.Machine.execShrRmvOne p rm s
  | .shrRm8Cl p rm => Sys2Proof.Machine.execShrRm8Cl p rm s
  | .shrRmvCl p rm => Sys2Proof.Machine.execShrRmvCl p rm s
  | .sarRm8Imm8 p rm imm => Sys2Proof.Machine.execSarRm8Imm8 p rm imm s
  | .sarRmvImm8 p rm imm => Sys2Proof.Machine.execSarRmvImm8 p rm imm s
  | .sarRm8One p rm => Sys2Proof.Machine.execSarRm8One p rm s
  | .sarRmvOne p rm => Sys2Proof.Machine.execSarRmvOne p rm s
  | .sarRm8Cl p rm => Sys2Proof.Machine.execSarRm8Cl p rm s
  | .sarRmvCl p rm => Sys2Proof.Machine.execSarRmvCl p rm s
  | .retImm16 p imm => Sys2Proof.Machine.execRetImm16 p imm s
  | .ret p => Sys2Proof.Machine.execRet p s
  | .movRm8Imm8 p rm imm => Sys2Proof.Machine.execMovRm8Imm8 p rm imm s
  | .movRmvImmz p rm imm => Sys2Proof.Machine.execMovRmvImmz p rm imm s
  | .callRelz p rel => Sys2Proof.Machine.execCallRelz p rel s
  | .jmpRelz p rel => Sys2Proof.Machine.execJmpRelz p rel s
  | .jmpRel8 p rel => Sys2Proof.Machine.execJmpRel8 p rel s
  | .hlt p => Sys2Proof.Machine.execHlt p s
  | .cmc p => Sys2Proof.Machine.execCmc p s
  | .testRm8Imm8 p rm imm => Sys2Proof.Machine.execTestRm8Imm8 p rm imm s
  | .testRmvImmz p rm imm => Sys2Proof.Machine.execTestRmvImmz p rm imm s
  | .notRm8 p rm => Sys2Proof.Machine.execNotRm8 p rm s
  | .notRmv p rm => Sys2Proof.Machine.execNotRmv p rm s
  | .negRm8 p rm => Sys2Proof.Machine.execNegRm8 p rm s
  | .negRmv p rm => Sys2Proof.Machine.execNegRmv p rm s
  | .mulRm8 p rm => Sys2Proof.Machine.execMulRm8 p rm s
  | .mulRmv p rm => Sys2Proof.Machine.execMulRmv p rm s
  | .imulRm8 p rm => Sys2Proof.Machine.execImulRm8 p rm s
  | .imulRmv p rm => Sys2Proof.Machine.execImulRmv p rm s
  | .divRm8 p rm => Sys2Proof.Machine.execDivRm8 p rm s
  | .divRmv p rm => Sys2Proof.Machine.execDivRmv p rm s
  | .idivRm8 p rm => Sys2Proof.Machine.execIdivRm8 p rm s
  | .idivRmv p rm => Sys2Proof.Machine.execIdivRmv p rm s
  | .clc p => Sys2Proof.Machine.execClc p s
  | .stc p => Sys2Proof.Machine.execStc p s
  | .incRm8 p rm => Sys2Proof.Machine.execIncRm8 p rm s
  | .decRm8 p rm => Sys2Proof.Machine.execDecRm8 p rm s
  | .incRmv p rm => Sys2Proof.Machine.execIncRmv p rm s
  | .decRmv p rm => Sys2Proof.Machine.execDecRmv p rm s
  | .callRmv p rm => Sys2Proof.Machine.execCallRmv p rm s
  | .jmpRmv p rm => Sys2Proof.Machine.execJmpRmv p rm s
  | .pushRmv p rm => Sys2Proof.Machine.execPushRmv p rm s
  | .ud2 p => Sys2Proof.Machine.execUd2 p s
  | .jccRelz p cc rel => Sys2Proof.Machine.execJccRelz p cc rel s
  | .setccRm8 p cc ext rm => Sys2Proof.Machine.execSetccRm8 p cc ext rm s
  | .imulRvRmv p reg rm => Sys2Proof.Machine.execImulRvRmv p reg rm s
  | .movzxRvRm8 p reg rm => Sys2Proof.Machine.execMovzxRvRm8 p reg rm s
  | .movzxRvRm16 p reg rm => Sys2Proof.Machine.execMovzxRvRm16 p reg rm s
  | .movsxRvRm8 p reg rm => Sys2Proof.Machine.execMovsxRvRm8 p reg rm s
  | .movsxRvRm16 p reg rm => Sys2Proof.Machine.execMovsxRvRm16 p reg rm s

end Sys2Proof.Machine
end

