-- ==== Sys2Proof/Machine/Block.lean ====
section
/-! DEFINITION. Block: fetching, the block assembler (40_unit_protocol.md R175 to R179, R183), running one
unit of a block, and `executeBlock` as the spec writes it (R180). -/

namespace Sys2Proof.Machine

/-! ### Fetch and decode (20_memory.md R78; 30_encoding.md R100 to R104) -/

/-- defOS = defAS (10_state.md R49). -/
def State.dflt (s : State) : OpSize := if s.mode = .prot ∧ s.codeSize32 = true then .w32 else .w16

/-- `Fetch(off)` as a cell of the decoder (20_memory.md R78; 30_encoding.md R103). -/
def State.fetchCell (s : State) (off : Word) : Cell :=
  match s.access .fetch .cs off 1 with
  | .ok => .byte (Memory.read s.mem (s.lin .cs off).toNat)
  | .fault v c => .stop (.fault (.fetchFault v c))
  | .unmodelled => .stop .unmodelledMemory

/-- The next n cells of the cursor, then the stop of a byte too many (30_encoding.md R104). -/
def State.fetchCells (s : State) (off : Word) : Nat → List Cell
  | 0 => [.stop (.fault .tooLong)]
  | n + 1 => s.fetchCell off :: s.fetchCells (off + 1) n

/-- Decode the instruction at an offset of CS, for the state's mode. -/
def State.decodeAt (s : State) (off : Word) : Except DecodeStop Instr :=
  (decodeCells s.dflt (s.fetchCells off maxInsnLen)).map Prod.fst

/-- What a decoded instruction is to the assembler. -/
inductive UnitKind where
  /-- A unit that is no terminator. -/
  | plain
  /-- A control transfer or HLT: the block ends with it (40_unit_protocol.md R177). -/
  | terminator
  /-- UD2: no unit, the decode fault Reserved (30_encoding.md R142). -/
  | reserved
  deriving DecidableEq, Repr

/-- The kind of every instruction (40_unit_protocol.md R177; 30_encoding.md R142). -/
def Instr.kind : Instr → UnitKind
  | .addRm8R8 .. | .addRmvRv .. | .addR8Rm8 .. | .addRvRmv .. | .addAlImm8 .. | .addEaxImmz ..
  | .orRm8R8 .. | .orRmvRv .. | .orR8Rm8 .. | .orRvRmv .. | .orAlImm8 .. | .orEaxImmz ..
  | .adcRm8R8 .. | .adcRmvRv .. | .adcR8Rm8 .. | .adcRvRmv .. | .adcAlImm8 .. | .adcEaxImmz ..
  | .sbbRm8R8 .. | .sbbRmvRv .. | .sbbR8Rm8 .. | .sbbRvRmv .. | .sbbAlImm8 .. | .sbbEaxImmz ..
  | .andRm8R8 .. | .andRmvRv .. | .andR8Rm8 .. | .andRvRmv .. | .andAlImm8 .. | .andEaxImmz ..
  | .subRm8R8 .. | .subRmvRv .. | .subR8Rm8 .. | .subRvRmv .. | .subAlImm8 .. | .subEaxImmz ..
  | .xorRm8R8 .. | .xorRmvRv .. | .xorR8Rm8 .. | .xorRvRmv .. | .xorAlImm8 .. | .xorEaxImmz ..
  | .cmpRm8R8 .. | .cmpRmvRv .. | .cmpR8Rm8 .. | .cmpRvRmv .. | .cmpAlImm8 .. | .cmpEaxImmz ..
  | .addRm8Imm8 .. | .addRmvImmz .. | .addRmvImm8 .. | .orRm8Imm8 .. | .orRmvImmz .. | .orRmvImm8 ..
  | .adcRm8Imm8 .. | .adcRmvImmz .. | .adcRmvImm8 .. | .sbbRm8Imm8 .. | .sbbRmvImmz .. | .sbbRmvImm8 ..
  | .andRm8Imm8 .. | .andRmvImmz .. | .andRmvImm8 .. | .subRm8Imm8 .. | .subRmvImmz .. | .subRmvImm8 ..
  | .xorRm8Imm8 .. | .xorRmvImmz .. | .xorRmvImm8 .. | .cmpRm8Imm8 .. | .cmpRmvImmz .. | .cmpRmvImm8 ..
  | .incRv .. | .decRv .. | .pushRv .. | .popRv .. | .pushImmz .. | .imulRvRmvImmz ..
  | .pushImm8 .. | .imulRvRmvImm8 .. | .testRm8R8 .. | .testRmvRv .. | .xchgRm8R8 .. | .xchgRmvRv ..
  | .movRm8R8 .. | .movRmvRv .. | .movR8Rm8 .. | .movRvRmv .. | .leaRvM .. | .nop ..
  | .xchgEaxEcx .. | .xchgEaxEdx .. | .xchgEaxEbx .. | .xchgEaxEsp .. | .xchgEaxEbp .. | .xchgEaxEsi ..
  | .xchgEaxEdi .. | .cbwCwde .. | .cwdCdq .. | .movAlMoffs8 .. | .movEaxMoffsv .. | .movMoffs8Al ..
  | .movMoffsvEax .. | .testAlImm8 .. | .testEaxImmz .. | .movR8Imm8 .. | .movRvImmz .. | .rolRm8Imm8 ..
  | .rolRmvImm8 .. | .rolRm8One .. | .rolRmvOne .. | .rolRm8Cl .. | .rolRmvCl .. | .rorRm8Imm8 ..
  | .rorRmvImm8 .. | .rorRm8One .. | .rorRmvOne .. | .rorRm8Cl .. | .rorRmvCl .. | .rclRm8Imm8 ..
  | .rclRmvImm8 .. | .rclRm8One .. | .rclRmvOne .. | .rclRm8Cl .. | .rclRmvCl .. | .rcrRm8Imm8 ..
  | .rcrRmvImm8 .. | .rcrRm8One .. | .rcrRmvOne .. | .rcrRm8Cl .. | .rcrRmvCl .. | .shlRm8Imm8 ..
  | .shlRmvImm8 .. | .shlRm8One .. | .shlRmvOne .. | .shlRm8Cl .. | .shlRmvCl .. | .shrRm8Imm8 ..
  | .shrRmvImm8 .. | .shrRm8One .. | .shrRmvOne .. | .shrRm8Cl .. | .shrRmvCl .. | .sarRm8Imm8 ..
  | .sarRmvImm8 .. | .sarRm8One .. | .sarRmvOne .. | .sarRm8Cl .. | .sarRmvCl .. | .movRm8Imm8 ..
  | .movRmvImmz .. | .cmc .. | .testRm8Imm8 .. | .testRmvImmz .. | .notRm8 .. | .notRmv ..
  | .negRm8 .. | .negRmv .. | .mulRm8 .. | .mulRmv .. | .imulRm8 .. | .imulRmv ..
  | .divRm8 .. | .divRmv .. | .idivRm8 .. | .idivRmv .. | .clc .. | .stc ..
  | .incRm8 .. | .decRm8 .. | .incRmv .. | .decRmv .. | .pushRmv .. | .setccRm8 ..
  | .imulRvRmv .. | .movzxRvRm8 .. | .movzxRvRm16 .. | .movsxRvRm8 .. | .movsxRvRm16 .. => .plain
  | .jccRel8 .. | .retImm16 .. | .ret .. | .callRelz .. | .jmpRelz .. | .jmpRel8 ..
  | .callRmv .. | .jmpRmv .. | .jccRelz .. | .hlt .. => .terminator
  | .ud2 .. => .reserved

/-- A decoded UD2 is the decode fault Reserved (30_encoding.md R139, R142; notes/assumptions/10.md). -/
def asUnit (d : Except DecodeStop Instr) : Except DecodeStop Instr :=
  match d with
  | .error e => .error e
  | .ok i =>
    match Instr.kind i with
    | .reserved => .error (.fault .reserved)
    | .plain => .ok i
    | .terminator => .ok i

/-- The refusal, or the decode fault, of a stop of the decoder. -/
def DecodeStop.split : DecodeStop → DecodeFault ⊕ Refusal
  | .fault k => .inl k
  | .notAdmitted b => .inr (.notAdmitted b)
  | .multipleSegmentOverride => .inr .multipleSegmentOverride
  | .unmodelledMemory => .inr .unmodelledMemory

/-! ### The assembler (40_unit_protocol.md R176) -/

/-- The units after the first, at most n of them: assembly stops after a terminator, at the length bound,
and before an instruction that does not decode (R176, R183). -/
def State.assembleMore (s : State) : Nat → Word → List InsnUnit
  | 0, _ => []
  | n + 1, off =>
    match asUnit (s.decodeAt off) with
    | .error _ => []
    | .ok i =>
      ⟨off, i⟩ ::
        match Instr.kind i with
        | .terminator => []
        | .plain => s.assembleMore n (off + BitVec.ofNat 32 i.len)
        | .reserved => s.assembleMore n (off + BitVec.ofNat 32 i.len)

/-- What `assemble` gives: a block (its first unit and the others), a decode fault or a refusal at the
entry. -/
inductive Assembled where
  | block (first : InsnUnit) (rest : List InsnUnit)
  | fault (k : DecodeFault)
  | refuse (r : Refusal)
  deriving DecidableEq, Repr

/-- `assemble(s, s.eip, s.mode)` (R176). MAX_BLOCK_LEN is at least 1 (00_scope.md R8). -/
def State.assemble (s : State) : Assembled :=
  match asUnit (s.decodeAt s.eip) with
  | .error e =>
    match DecodeStop.split e with
    | .inl k => .fault k
    | .inr r => .refuse r
  | .ok i =>
    .block ⟨s.eip, i⟩ <|
      match Instr.kind i with
      | .terminator => []
      | .plain => s.assembleMore (s.params.maxBlockLen - 1) (s.nextEip i.len)
      | .reserved => s.assembleMore (s.params.maxBlockLen - 1) (s.nextEip i.len)

/-! ### Running a block -/

/-- `end(o)` (40_unit_protocol.md R180). -/
def Tag.blockEnd : Tag → BlockEnd
  | .noBranch => .fallthrough
  | .jump t => .jump t
  | .cond b t => .cond b t
  | .trap v c => .trap v c
  | .halt => .halt

/-- TF, EFLAGS bit 8 (10_state.md R43). -/
def State.tf (s : State) : Bool := s.eflagsOther.getLsbD 8

/-- The state with a block of the given units about to run at eip. -/
def State.enter (s : State) (units : List InsnUnit) : State :=
  { s with block := some ⟨s.eip, s.mode, [], units⟩, report := none }

/-- After the unit u of the running block b left the state t with a tag, `rest` being the units after u:
a trap or the last unit ends the block with its report, otherwise the block goes on
(40_unit_protocol.md R180, R181). -/
def settle (b : RunningBlock) (u : InsnUnit) (rest : List InsnUnit) (t : State) : State :=
  match t.lastTag, rest with
  | .trap v c, _ => { t with block := none, report := some ⟨b.done.length, .trap v c⟩ }
  | tag, [] => { t with block := none, report := some ⟨b.done.length + 1, tag.blockEnd⟩ }
  | _, v :: rest => { t with block := some { b with done := b.done ++ [u], todo := v :: rest } }

/-- Run the next unit of the running block b (40_unit_protocol.md R165, R180). The unit must start at eip
(the `require` of R165), and the block must be of the state's mode (60_exceptions.md R401). -/
def runNext (b : RunningBlock) (s : State) : Out :=
  if b.mode = s.mode then
    match b.todo with
    | [] => .fault .staleBlock
    | u :: rest =>
      if u.start = s.eip then
        match exec u.instr s with
        | .next t => .next (settle b u rest t)
        | .fault f => .fault f
        | .refused r => .refused r
      else .fault .staleBlock
  else .fault .invalidModeCast

/-- Enter the block at eip and run its first unit; a decode fault there is the block's result
(40_unit_protocol.md R180, R183). -/
def enterBlock (s : State) : Out :=
  if s.tf then .refused .singleStepUnmodelled
  else
    match s.assemble with
    | .refuse r => .refused r
    | .fault k => .next (s.decodeFault k)
    | .block u rest => runNext ⟨s.eip, s.mode, [], u :: rest⟩ (s.enter (u :: rest))

/-- The run ends with this result (40_unit_protocol.md R191). -/
def BlockEnd.endsRun : BlockEnd → Bool
  | .fallthrough => false
  | .jump _ => false
  | .cond _ _ => false
  | .halt => true
  | .trap _ _ => true
  | .decodeFault _ => true

/-- The exception a block's result hands to the driver: a trap's vector and code, or those of a decode fault
(60_exceptions.md R402, R404). -/
def BlockEnd.exception : BlockEnd → Option (Nat × Option Word)
  | .fallthrough => none
  | .jump _ => none
  | .cond _ _ => none
  | .halt => none
  | .trap v c => some (v, c)
  | .decodeFault k => k.exception

/-- The last block ended the run, and the driver has not asked for another (40_unit_protocol.md R191). -/
def State.ended (s : State) : Bool :=
  match s.report with
  | none => false
  | some r => r.result.endsRun

/-! ### executeBlock (40_unit_protocol.md R180) -/

/-- The loop over the units, `count` of them done: the state at the end of the block, with its report, or
the refused state. -/
def runUnits (count : Nat) : List InsnUnit → State → State
  | [], s => s
  | u :: rest, s =>
    match exec u.instr s with
    | .refused r => s.refuse r
    | .fault _ => s
    | .next t =>
      match t.lastTag, rest with
      | .trap v c, _ => { t with block := none, report := some ⟨count, .trap v c⟩ }
      | tag, [] => { t with block := none, report := some ⟨count + 1, tag.blockEnd⟩ }
      | _, v :: rest => runUnits (count + 1) (v :: rest) t

/-- `executeBlock(s)` as the spec writes it: the state it leaves, whose `report` is the count and result
it returns, or whose `refused` is set (R168, R180, R181). `step` runs the same block unit by unit. -/
def executeBlock (s : State) : State :=
  match s.refused with
  | some _ => s
  | none =>
    if s.tf then s.refuse .singleStepUnmodelled
    else
      match s.assemble with
      | .refuse r => s.refuse r
      | .fault k => s.decodeFault k
      | .block u rest => runUnits 0 (u :: rest) (s.enter (u :: rest))

end Sys2Proof.Machine
end

