-- ==== Sys2Proof/Machine/Step.lean ====
section
/-! DEFINITION. Step: one unit of the running block, or the entry of the next block and its first unit.
The spec's only step is a whole block (40_unit_protocol.md R180, `executeBlock` in Machine/Block.lean);
this one is the same run cut at the units. DESIGN CHOICE, safe: notes/assumptions/1.md. -/

namespace Sys2Proof.Machine

/-- One step: a refused state has none (40_unit_protocol.md R168); a running block goes on; a run that has
ended stays ended (R191); otherwise the block at eip is entered. -/
def step (s : State) : Host.Outcome State Fault Refusal :=
  match s.refused with
  | some r => .refused r
  | none =>
    match s.block with
    | some b => runNext b s
    | none => if s.ended then .fault .runEnded else enterBlock s

/-- The state with an instruction's bytes placed where the next block begins, between blocks, as the host
places a program (20_memory.md R72; 70_reset_and_hazards.md R452): the next step fetches and runs it.
DESIGN CHOICE, safe: notes/assumptions/14.md. -/
def State.withFetchWord (s : State) (nbits w : Nat) : State :=
  { s with
    mem := Memory.writeBytes s.mem (s.lin .cs s.eip) (tableBytes nbits w)
    block := none
    report := none }

end Sys2Proof.Machine
end

