-- ==== Sys2Proof/Machine/HostOps.lean ====
section
/-! DEFINITION. HostOps: what the host may do between blocks (40_unit_protocol.md R186): the snapshot
(R187), writing memory (20_memory.md R72), and the query of an instruction's length (R190).
`executeBlock` is in Machine/Block.lean, `disassemble` in Machine/Disasm.lean. -/

namespace Sys2Proof.Machine

/-- `setPhysicalMemory(address, bytes)` (20_memory.md R72). -/
def State.setPhysicalMemory (s : State) (address : Word) (bytes : List Byte) : State :=
  { s with mem := Memory.writeBytes s.mem address bytes }

/-- A bit as a 32-bit word. -/
def bitWord (b : Bool) : Word := if b then 1 else 0

/-- The bits of the six status flags in the EFLAGS image (10_state.md R42). -/
def statusMask : Word := 0x000008D5

/-- The EFLAGS image (10_state.md R42). -/
def State.eflags (s : State) : Word :=
  (s.eflagsOther &&& ~~~statusMask) ||| bitWord s.flags.cf ||| (bitWord s.flags.pf <<< 2) |||
    (bitWord s.flags.af <<< 4) ||| (bitWord s.flags.zf <<< 6) ||| (bitWord s.flags.sf <<< 7) |||
    (bitWord s.flags.of <<< 11)

/-- The six flags of an EFLAGS image (10_state.md R42). -/
def flagsOf (image : Word) : Flags where
  cf := image.getLsbD 0
  pf := image.getLsbD 2
  af := image.getLsbD 4
  zf := image.getLsbD 6
  sf := image.getLsbD 7
  of := image.getLsbD 11

/-- The number of a mode in the snapshot (R187). -/
def Mode.number : Mode → Word
  | .real => 0
  | .prot => 1
  | .v86 => 2

/-- The mode of a number of the snapshot (R187). -/
def Mode.ofNumber (w : Word) : Mode :=
  match w.toNat with
  | 0 => .real
  | 1 => .prot
  | _ => .v86

/-- cpl is 0 in Real mode and 3 in V86 mode (10_state.md R48). -/
def Mode.allowsCpl (m : Mode) (cpl : Nat) : Bool :=
  match m with
  | .real => cpl == 0
  | .prot => true
  | .v86 => cpl == 3

/-- `getState()`: the 26 words of R187. -/
def State.getState (s : State) : List Word :=
  [s.gpr.eax, s.gpr.ecx, s.gpr.edx, s.gpr.ebx, s.gpr.esp, s.gpr.ebp, s.gpr.esi, s.gpr.edi,
    s.eip, s.eflags,
    s.seg.es.sel.setWidth 32, s.seg.cs.sel.setWidth 32, s.seg.ss.sel.setWidth 32,
    s.seg.ds.sel.setWidth 32, s.seg.fs.sel.setWidth 32, s.seg.gs.sel.setWidth 32,
    s.seg.es.base, s.seg.cs.base, s.seg.ss.base, s.seg.ds.base, s.seg.fs.base, s.seg.gs.base,
    Mode.number s.mode, bitWord s.codeSize32, bitWord s.stackSize32, s.cpl.setWidth 32]

/-- Word k of a snapshot. -/
def snapWord (a : List Word) (k : Nat) : Word := a.getD k 0

/-- Every field of a snapshot is in its range (R187). Another length than 26 is out of range: DESIGN
CHOICE, safe (notes/assumptions/16.md). -/
def snapshotValid (a : List Word) : Bool :=
  a.length == 26 &&
    ([10, 11, 12, 13, 14, 15].all fun k => decide ((snapWord a k).toNat ≤ 0xFFFF)) &&
    decide ((snapWord a 22).toNat ≤ 2) && decide ((snapWord a 23).toNat ≤ 1) &&
    decide ((snapWord a 24).toNat ≤ 1) && decide ((snapWord a 25).toNat ≤ 3) &&
    Mode.allowsCpl (Mode.ofNumber (snapWord a 22)) (snapWord a 25).toNat

/-- Segment register k of a snapshot. -/
def snapSegment (a : List Word) (k : Nat) : Segment :=
  ⟨(snapWord a (10 + k)).extractLsb' 0 16, snapWord a (16 + k)⟩

/-- `setState(a)`: every field is written, eip among them; a field out of range refuses (R187). It is
called between blocks only (R186). On a state already refused, a snapshot out of range leaves
InvalidSnapshot as the reason: R168 says only that a refusal is never cleared. DESIGN CHOICE, safe:
notes/assumptions/9.md. -/
def State.setState (s : State) (a : List Word) : State :=
  if snapshotValid a then
    { s with
      gpr := ⟨snapWord a 0, snapWord a 1, snapWord a 2, snapWord a 3, snapWord a 4, snapWord a 5,
        snapWord a 6, snapWord a 7⟩
      eip := snapWord a 8
      flags := flagsOf (snapWord a 9)
      eflagsOther := snapWord a 9 &&& ~~~statusMask
      seg := ⟨snapSegment a 0, snapSegment a 1, snapSegment a 2, snapSegment a 3, snapSegment a 4,
        snapSegment a 5⟩
      mode := Mode.ofNumber (snapWord a 22)
      codeSize32 := snapWord a 23 == 1
      stackSize32 := snapWord a 24 == 1
      cpl := (snapWord a 25).extractLsb' 0 2 }
  else s.refuse .invalidSnapshot

/-- The answer of a decode-only query (R189, R190). -/
inductive QueryResult (α : Type) where
  | ok (a : α)
  | invalidEncoding
  | unsupported
  deriving DecidableEq, Repr

/-- Decode one instruction from the start of a byte string under the operand-size flag (R189): a decode
fault is InvalidEncoding, a refused encoding Unsupported. -/
def query (bytes : List Byte) (flag : Bool) : QueryResult Instr :=
  match asUnit (decode (if flag then .w32 else .w16) bytes) with
  | .ok i => .ok i
  | .error (.fault _) => .invalidEncoding
  | .error (.notAdmitted _) => .unsupported
  | .error .multipleSegmentOverride => .unsupported
  | .error .unmodelledMemory => .unsupported

/-- A query's answer with its value changed. -/
def QueryResult.map {α β : Type} (f : α → β) : QueryResult α → QueryResult β
  | .ok a => .ok (f a)
  | .invalidEncoding => .invalidEncoding
  | .unsupported => .unsupported

/-- `instructionLength(bytes, operandSizeFlag)` (R190). -/
def instructionLength (bytes : List Byte) (flag : Bool) : QueryResult Nat := (query bytes flag).map Instr.len

end Sys2Proof.Machine
end

