-- ==== Sys2Proof/Machine/Disasm.lean ====
section
/-! DEFINITION. Disasm: the `disassemble` query (40_unit_protocol.md R189) in the syntax of 30_encoding.md
R147, R148. What R147 leaves open of the text is DESIGN CHOICE, safe: notes/assumptions/15.md. -/

namespace Sys2Proof.Machine

/-- The name of a register view (10_state.md R31 to R33). -/
def regName : Size → Reg → String
  | .s32, .eax => "eax" | .s32, .ecx => "ecx" | .s32, .edx => "edx" | .s32, .ebx => "ebx"
  | .s32, .esp => "esp" | .s32, .ebp => "ebp" | .s32, .esi => "esi" | .s32, .edi => "edi"
  | .s16, .eax => "ax" | .s16, .ecx => "cx" | .s16, .edx => "dx" | .s16, .ebx => "bx"
  | .s16, .esp => "sp" | .s16, .ebp => "bp" | .s16, .esi => "si" | .s16, .edi => "di"
  | .s8, .eax => "al" | .s8, .ecx => "cl" | .s8, .edx => "dl" | .s8, .ebx => "bl"
  | .s8, .esp => "ah" | .s8, .ebp => "ch" | .s8, .esi => "dh" | .s8, .edi => "bh"

/-- The name of a segment register (10_state.md R51). -/
def segName : SegReg → String
  | .es => "es"
  | .cs => "cs"
  | .ss => "ss"
  | .ds => "ds"
  | .fs => "fs"
  | .gs => "gs"

/-- The first name of a condition (46_control.md R334; 30_encoding.md R148). -/
def condName : Cond → String
  | .o => "o"
  | .no => "no"
  | .b => "b"
  | .ae => "ae"
  | .e => "e"
  | .ne => "ne"
  | .be => "be"
  | .a => "a"
  | .s => "s"
  | .ns => "ns"
  | .p => "p"
  | .np => "np"
  | .l => "l"
  | .ge => "ge"
  | .le => "le"
  | .g => "g"

/-- The size word of a memory operand (R147). -/
def sizeName : Size → String
  | .s8 => "byte"
  | .s16 => "word"
  | .s32 => "dword"

/-- One hexadecimal digit. -/
def hexDigit (k : Nat) : String :=
  match k with
  | 0 => "0" | 1 => "1" | 2 => "2" | 3 => "3" | 4 => "4" | 5 => "5" | 6 => "6" | 7 => "7"
  | 8 => "8" | 9 => "9" | 10 => "a" | 11 => "b" | 12 => "c" | 13 => "d" | 14 => "e" | _ => "f"

/-- At most `fuel` hexadecimal digits of k, without leading zeros. -/
def hexDigits : Nat → Nat → String
  | 0, _ => ""
  | fuel + 1, k => (if k / 16 = 0 then "" else hexDigits fuel (k / 16)) ++ hexDigit (k % 16)

/-- A number, in hexadecimal with a 0x prefix (R147). -/
def hex (w : Word) : String := "0x" ++ hexDigits 8 w.toNat

/-- The size of the base and index registers of an address expression. -/
def EA.regSize (ea : EA) : Size := ea.asize.size

/-- `<base>+<index>*<scale>+<disp>`: the parts the expression has (R147). A zero displacement is shown
only when it stands alone. -/
def EA.text (ea : EA) : String :=
  let base := ea.base.elim [] fun r => [regName (EA.regSize ea) r]
  let index := ea.index.elim [] fun x =>
    [regName (EA.regSize ea) x.1 ++ "*" ++ hex (BitVec.ofNat 32 (Scale.factor x.2))]
  let disp := if ea.disp = 0 ∧ (ea.base.isSome ∨ ea.index.isSome) then [] else [hex ea.disp]
  "+".intercalate (base ++ index ++ disp)

/-- `<size> ptr <seg>:[...]`, the segment shown only when overridden (R147). LEA's operand shows an override
too, though R107 gives it no effect there: R147 does not say whether it counts. DESIGN CHOICE, safe:
notes/assumptions/15.md. -/
def memText (p : Prefixes) (z : Size) (ea : EA) : String :=
  sizeName z ++ " ptr " ++ ((segOverride p.list).elim "" fun g => segName g ++ ":") ++ "[" ++ EA.text ea ++ "]"

/-- An operand as the disassembler prints it. -/
inductive AsmArg where
  | reg (z : Size) (r : Reg)
  | rm (z : Size) (o : Rm)
  | moffs (z : Size) (off : Immz)
  | imm (v : Word)
  /-- A relative branch, with its field sign-extended. -/
  | target (rel : Word)
  deriving DecidableEq, Repr

/-- The text of an operand of an instruction of `len` bytes; the instruction stands at offset 0. -/
def AsmArg.text (p : Prefixes) (len : Nat) : AsmArg → String
  | .reg z r => regName z r
  | .rm z (.reg r) => regName z r
  | .rm z (.mem m) => memText p z (MemForm.ea m)
  | .moffs z off => memText p z ⟨none, none, Immz.zext off, p.addrSize⟩
  | .imm v => hex v
  | .target rel => hex (truncTarget p (BitVec.ofNat 32 len + rel))

/-- The mnemonic and the operands of every instruction, the destination first (R147, R148). -/
def Instr.asm : Instr → String × List AsmArg
  | .addRm8R8 _ reg rm => ("add", [.rm .s8 rm, .reg .s8 reg])
  | .addRmvRv p reg rm => ("add", [.rm p.opSize.size rm, .reg p.opSize.size reg])
  | .addR8Rm8 _ reg rm => ("add", [.reg .s8 reg, .rm .s8 rm])
  | .addRvRmv p reg rm => ("add", [.reg p.opSize.size reg, .rm p.opSize.size rm])
  | .addAlImm8 _ imm => ("add", [.reg .s8 .eax, .imm (imm.setWidth 32)])
  | .addEaxImmz p imm => ("add", [.reg p.opSize.size .eax, .imm (Immz.zext imm)])
  | .orRm8R8 _ reg rm => ("or", [.rm .s8 rm, .reg .s8 reg])
  | .orRmvRv p reg rm => ("or", [.rm p.opSize.size rm, .reg p.opSize.size reg])
  | .orR8Rm8 _ reg rm => ("or", [.reg .s8 reg, .rm .s8 rm])
  | .orRvRmv p reg rm => ("or", [.reg p.opSize.size reg, .rm p.opSize.size rm])
  | .orAlImm8 _ imm => ("or", [.reg .s8 .eax, .imm (imm.setWidth 32)])
  | .orEaxImmz p imm => ("or", [.reg p.opSize.size .eax, .imm (Immz.zext imm)])
  | .adcRm8R8 _ reg rm => ("adc", [.rm .s8 rm, .reg .s8 reg])
  | .adcRmvRv p reg rm => ("adc", [.rm p.opSize.size rm, .reg p.opSize.size reg])
  | .adcR8Rm8 _ reg rm => ("adc", [.reg .s8 reg, .rm .s8 rm])
  | .adcRvRmv p reg rm => ("adc", [.reg p.opSize.size reg, .rm p.opSize.size rm])
  | .adcAlImm8 _ imm => ("adc", [.reg .s8 .eax, .imm (imm.setWidth 32)])
  | .adcEaxImmz p imm => ("adc", [.reg p.opSize.size .eax, .imm (Immz.zext imm)])
  | .sbbRm8R8 _ reg rm => ("sbb", [.rm .s8 rm, .reg .s8 reg])
  | .sbbRmvRv p reg rm => ("sbb", [.rm p.opSize.size rm, .reg p.opSize.size reg])
  | .sbbR8Rm8 _ reg rm => ("sbb", [.reg .s8 reg, .rm .s8 rm])
  | .sbbRvRmv p reg rm => ("sbb", [.reg p.opSize.size reg, .rm p.opSize.size rm])
  | .sbbAlImm8 _ imm => ("sbb", [.reg .s8 .eax, .imm (imm.setWidth 32)])
  | .sbbEaxImmz p imm => ("sbb", [.reg p.opSize.size .eax, .imm (Immz.zext imm)])
  | .andRm8R8 _ reg rm => ("and", [.rm .s8 rm, .reg .s8 reg])
  | .andRmvRv p reg rm => ("and", [.rm p.opSize.size rm, .reg p.opSize.size reg])
  | .andR8Rm8 _ reg rm => ("and", [.reg .s8 reg, .rm .s8 rm])
  | .andRvRmv p reg rm => ("and", [.reg p.opSize.size reg, .rm p.opSize.size rm])
  | .andAlImm8 _ imm => ("and", [.reg .s8 .eax, .imm (imm.setWidth 32)])
  | .andEaxImmz p imm => ("and", [.reg p.opSize.size .eax, .imm (Immz.zext imm)])
  | .subRm8R8 _ reg rm => ("sub", [.rm .s8 rm, .reg .s8 reg])
  | .subRmvRv p reg rm => ("sub", [.rm p.opSize.size rm, .reg p.opSize.size reg])
  | .subR8Rm8 _ reg rm => ("sub", [.reg .s8 reg, .rm .s8 rm])
  | .subRvRmv p reg rm => ("sub", [.reg p.opSize.size reg, .rm p.opSize.size rm])
  | .subAlImm8 _ imm => ("sub", [.reg .s8 .eax, .imm (imm.setWidth 32)])
  | .subEaxImmz p imm => ("sub", [.reg p.opSize.size .eax, .imm (Immz.zext imm)])
  | .xorRm8R8 _ reg rm => ("xor", [.rm .s8 rm, .reg .s8 reg])
  | .xorRmvRv p reg rm => ("xor", [.rm p.opSize.size rm, .reg p.opSize.size reg])
  | .xorR8Rm8 _ reg rm => ("xor", [.reg .s8 reg, .rm .s8 rm])
  | .xorRvRmv p reg rm => ("xor", [.reg p.opSize.size reg, .rm p.opSize.size rm])
  | .xorAlImm8 _ imm => ("xor", [.reg .s8 .eax, .imm (imm.setWidth 32)])
  | .xorEaxImmz p imm => ("xor", [.reg p.opSize.size .eax, .imm (Immz.zext imm)])
  | .cmpRm8R8 _ reg rm => ("cmp", [.rm .s8 rm, .reg .s8 reg])
  | .cmpRmvRv p reg rm => ("cmp", [.rm p.opSize.size rm, .reg p.opSize.size reg])
  | .cmpR8Rm8 _ reg rm => ("cmp", [.reg .s8 reg, .rm .s8 rm])
  | .cmpRvRmv p reg rm => ("cmp", [.reg p.opSize.size reg, .rm p.opSize.size rm])
  | .cmpAlImm8 _ imm => ("cmp", [.reg .s8 .eax, .imm (imm.setWidth 32)])
  | .cmpEaxImmz p imm => ("cmp", [.reg p.opSize.size .eax, .imm (Immz.zext imm)])
  | .addRm8Imm8 _ _ rm imm => ("add", [.rm .s8 rm, .imm (imm.setWidth 32)])
  | .addRmvImmz p rm imm => ("add", [.rm p.opSize.size rm, .imm (Immz.zext imm)])
  | .addRmvImm8 p rm imm => ("add", [.rm p.opSize.size rm, .imm ((imms p.opSize.size imm).setWidth 32)])
  | .orRm8Imm8 _ _ rm imm => ("or", [.rm .s8 rm, .imm (imm.setWidth 32)])
  | .orRmvImmz p rm imm => ("or", [.rm p.opSize.size rm, .imm (Immz.zext imm)])
  | .orRmvImm8 p rm imm => ("or", [.rm p.opSize.size rm, .imm ((imms p.opSize.size imm).setWidth 32)])
  | .adcRm8Imm8 _ _ rm imm => ("adc", [.rm .s8 rm, .imm (imm.setWidth 32)])
  | .adcRmvImmz p rm imm => ("adc", [.rm p.opSize.size rm, .imm (Immz.zext imm)])
  | .adcRmvImm8 p rm imm => ("adc", [.rm p.opSize.size rm, .imm ((imms p.opSize.size imm).setWidth 32)])
  | .sbbRm8Imm8 _ _ rm imm => ("sbb", [.rm .s8 rm, .imm (imm.setWidth 32)])
  | .sbbRmvImmz p rm imm => ("sbb", [.rm p.opSize.size rm, .imm (Immz.zext imm)])
  | .sbbRmvImm8 p rm imm => ("sbb", [.rm p.opSize.size rm, .imm ((imms p.opSize.size imm).setWidth 32)])
  | .andRm8Imm8 _ _ rm imm => ("and", [.rm .s8 rm, .imm (imm.setWidth 32)])
  | .andRmvImmz p rm imm => ("and", [.rm p.opSize.size rm, .imm (Immz.zext imm)])
  | .andRmvImm8 p rm imm => ("and", [.rm p.opSize.size rm, .imm ((imms p.opSize.size imm).setWidth 32)])
  | .subRm8Imm8 _ _ rm imm => ("sub", [.rm .s8 rm, .imm (imm.setWidth 32)])
  | .subRmvImmz p rm imm => ("sub", [.rm p.opSize.size rm, .imm (Immz.zext imm)])
  | .subRmvImm8 p rm imm => ("sub", [.rm p.opSize.size rm, .imm ((imms p.opSize.size imm).setWidth 32)])
  | .xorRm8Imm8 _ _ rm imm => ("xor", [.rm .s8 rm, .imm (imm.setWidth 32)])
  | .xorRmvImmz p rm imm => ("xor", [.rm p.opSize.size rm, .imm (Immz.zext imm)])
  | .xorRmvImm8 p rm imm => ("xor", [.rm p.opSize.size rm, .imm ((imms p.opSize.size imm).setWidth 32)])
  | .cmpRm8Imm8 _ _ rm imm => ("cmp", [.rm .s8 rm, .imm (imm.setWidth 32)])
  | .cmpRmvImmz p rm imm => ("cmp", [.rm p.opSize.size rm, .imm (Immz.zext imm)])
  | .cmpRmvImm8 p rm imm => ("cmp", [.rm p.opSize.size rm, .imm ((imms p.opSize.size imm).setWidth 32)])
  | .incRv p r => ("inc", [.reg p.opSize.size r])
  | .decRv p r => ("dec", [.reg p.opSize.size r])
  | .pushRv p r => ("push", [.reg p.opSize.size r])
  | .popRv p r => ("pop", [.reg p.opSize.size r])
  | .pushImmz _ imm => ("push", [.imm (Immz.zext imm)])
  | .imulRvRmvImmz p reg rm imm => ("imul", [.reg p.opSize.size reg, .rm p.opSize.size rm, .imm (Immz.zext imm)])
  | .pushImm8 p imm => ("push", [.imm ((imms p.opSize.size imm).setWidth 32)])
  | .imulRvRmvImm8 p reg rm imm => ("imul", [.reg p.opSize.size reg, .rm p.opSize.size rm, .imm ((imms p.opSize.size imm).setWidth 32)])
  | .jccRel8 _ cc rel => ("j" ++ condName cc, [.target (rel.signExtend 32)])
  | .testRm8R8 _ reg rm => ("test", [.rm .s8 rm, .reg .s8 reg])
  | .testRmvRv p reg rm => ("test", [.rm p.opSize.size rm, .reg p.opSize.size reg])
  | .xchgRm8R8 _ reg rm => ("xchg", [.rm .s8 rm, .reg .s8 reg])
  | .xchgRmvRv p reg rm => ("xchg", [.rm p.opSize.size rm, .reg p.opSize.size reg])
  | .movRm8R8 _ reg rm => ("mov", [.rm .s8 rm, .reg .s8 reg])
  | .movRmvRv p reg rm => ("mov", [.rm p.opSize.size rm, .reg p.opSize.size reg])
  | .movR8Rm8 _ reg rm => ("mov", [.reg .s8 reg, .rm .s8 rm])
  | .movRvRmv p reg rm => ("mov", [.reg p.opSize.size reg, .rm p.opSize.size rm])
  | .leaRvM p reg m => ("lea", [.reg p.opSize.size reg, .rm p.opSize.size (.mem m)])
  | .nop _ => ("nop", [])
  | .xchgEaxEcx p => ("xchg", [.reg p.opSize.size .eax, .reg p.opSize.size .ecx])
  | .xchgEaxEdx p => ("xchg", [.reg p.opSize.size .eax, .reg p.opSize.size .edx])
  | .xchgEaxEbx p => ("xchg", [.reg p.opSize.size .eax, .reg p.opSize.size .ebx])
  | .xchgEaxEsp p => ("xchg", [.reg p.opSize.size .eax, .reg p.opSize.size .esp])
  | .xchgEaxEbp p => ("xchg", [.reg p.opSize.size .eax, .reg p.opSize.size .ebp])
  | .xchgEaxEsi p => ("xchg", [.reg p.opSize.size .eax, .reg p.opSize.size .esi])
  | .xchgEaxEdi p => ("xchg", [.reg p.opSize.size .eax, .reg p.opSize.size .edi])
  | .cbwCwde p => ((match p.opSize with | .w16 => "cbw" | .w32 => "cwde"), [])
  | .cwdCdq p => ((match p.opSize with | .w16 => "cwd" | .w32 => "cdq"), [])
  | .movAlMoffs8 _ off => ("mov", [.reg .s8 .eax, .moffs .s8 off])
  | .movEaxMoffsv p off => ("mov", [.reg p.opSize.size .eax, .moffs p.opSize.size off])
  | .movMoffs8Al _ off => ("mov", [.moffs .s8 off, .reg .s8 .eax])
  | .movMoffsvEax p off => ("mov", [.moffs p.opSize.size off, .reg p.opSize.size .eax])
  | .testAlImm8 _ imm => ("test", [.reg .s8 .eax, .imm (imm.setWidth 32)])
  | .testEaxImmz p imm => ("test", [.reg p.opSize.size .eax, .imm (Immz.zext imm)])
  | .movR8Imm8 _ r imm => ("mov", [.reg .s8 r, .imm (imm.setWidth 32)])
  | .movRvImmz p r imm => ("mov", [.reg p.opSize.size r, .imm (Immz.zext imm)])
  | .rolRm8Imm8 _ rm imm => ("rol", [.rm .s8 rm, .imm (imm.setWidth 32)])
  | .rolRmvImm8 p rm imm => ("rol", [.rm p.opSize.size rm, .imm (imm.setWidth 32)])
  | .rolRm8One _ rm => ("rol", [.rm .s8 rm, .imm 1])
  | .rolRmvOne p rm => ("rol", [.rm p.opSize.size rm, .imm 1])
  | .rolRm8Cl _ rm => ("rol", [.rm .s8 rm, .reg .s8 .ecx])
  | .rolRmvCl p rm => ("rol", [.rm p.opSize.size rm, .reg .s8 .ecx])
  | .rorRm8Imm8 _ rm imm => ("ror", [.rm .s8 rm, .imm (imm.setWidth 32)])
  | .rorRmvImm8 p rm imm => ("ror", [.rm p.opSize.size rm, .imm (imm.setWidth 32)])
  | .rorRm8One _ rm => ("ror", [.rm .s8 rm, .imm 1])
  | .rorRmvOne p rm => ("ror", [.rm p.opSize.size rm, .imm 1])
  | .rorRm8Cl _ rm => ("ror", [.rm .s8 rm, .reg .s8 .ecx])
  | .rorRmvCl p rm => ("ror", [.rm p.opSize.size rm, .reg .s8 .ecx])
  | .rclRm8Imm8 _ rm imm => ("rcl", [.rm .s8 rm, .imm (imm.setWidth 32)])
  | .rclRmvImm8 p rm imm => ("rcl", [.rm p.opSize.size rm, .imm (imm.setWidth 32)])
  | .rclRm8One _ rm => ("rcl", [.rm .s8 rm, .imm 1])
  | .rclRmvOne p rm => ("rcl", [.rm p.opSize.size rm, .imm 1])
  | .rclRm8Cl _ rm => ("rcl", [.rm .s8 rm, .reg .s8 .ecx])
  | .rclRmvCl p rm => ("rcl", [.rm p.opSize.size rm, .reg .s8 .ecx])
  | .rcrRm8Imm8 _ rm imm => ("rcr", [.rm .s8 rm, .imm (imm.setWidth 32)])
  | .rcrRmvImm8 p rm imm => ("rcr", [.rm p.opSize.size rm, .imm (imm.setWidth 32)])
  | .rcrRm8One _ rm => ("rcr", [.rm .s8 rm, .imm 1])
  | .rcrRmvOne p rm => ("rcr", [.rm p.opSize.size rm, .imm 1])
  | .rcrRm8Cl _ rm => ("rcr", [.rm .s8 rm, .reg .s8 .ecx])
  | .rcrRmvCl p rm => ("rcr", [.rm p.opSize.size rm, .reg .s8 .ecx])
  | .shlRm8Imm8 _ rm imm => ("shl", [.rm .s8 rm, .imm (imm.setWidth 32)])
  | .shlRmvImm8 p rm imm => ("shl", [.rm p.opSize.size rm, .imm (imm.setWidth 32)])
  | .shlRm8One _ rm => ("shl", [.rm .s8 rm, .imm 1])
  | .shlRmvOne p rm => ("shl", [.rm p.opSize.size rm, .imm 1])
  | .shlRm8Cl _ rm => ("shl", [.rm .s8 rm, .reg .s8 .ecx])
  | .shlRmvCl p rm => ("shl", [.rm p.opSize.size rm, .reg .s8 .ecx])
  | .shrRm8Imm8 _ rm imm => ("shr", [.rm .s8 rm, .imm (imm.setWidth 32)])
  | .shrRmvImm8 p rm imm => ("shr", [.rm p.opSize.size rm, .imm (imm.setWidth 32)])
  | .shrRm8One _ rm => ("shr", [.rm .s8 rm, .imm 1])
  | .shrRmvOne p rm => ("shr", [.rm p.opSize.size rm, .imm 1])
  | .shrRm8Cl _ rm => ("shr", [.rm .s8 rm, .reg .s8 .ecx])
  | .shrRmvCl p rm => ("shr", [.rm p.opSize.size rm, .reg .s8 .ecx])
  | .sarRm8Imm8 _ rm imm => ("sar", [.rm .s8 rm, .imm (imm.setWidth 32)])
  | .sarRmvImm8 p rm imm => ("sar", [.rm p.opSize.size rm, .imm (imm.setWidth 32)])
  | .sarRm8One _ rm => ("sar", [.rm .s8 rm, .imm 1])
  | .sarRmvOne p rm => ("sar", [.rm p.opSize.size rm, .imm 1])
  | .sarRm8Cl _ rm => ("sar", [.rm .s8 rm, .reg .s8 .ecx])
  | .sarRmvCl p rm => ("sar", [.rm p.opSize.size rm, .reg .s8 .ecx])
  | .retImm16 _ imm => ("ret", [.imm (imm.setWidth 32)])
  | .ret _ => ("ret", [])
  | .movRm8Imm8 _ rm imm => ("mov", [.rm .s8 rm, .imm (imm.setWidth 32)])
  | .movRmvImmz p rm imm => ("mov", [.rm p.opSize.size rm, .imm (Immz.zext imm)])
  | .callRelz _ rel => ("call", [.target (Immz.sext rel)])
  | .jmpRelz _ rel => ("jmp", [.target (Immz.sext rel)])
  | .jmpRel8 _ rel => ("jmp", [.target (rel.signExtend 32)])
  | .hlt _ => ("hlt", [])
  | .cmc _ => ("cmc", [])
  | .testRm8Imm8 _ rm imm => ("test", [.rm .s8 rm, .imm (imm.setWidth 32)])
  | .testRmvImmz p rm imm => ("test", [.rm p.opSize.size rm, .imm (Immz.zext imm)])
  | .notRm8 _ rm => ("not", [.rm .s8 rm])
  | .notRmv p rm => ("not", [.rm p.opSize.size rm])
  | .negRm8 _ rm => ("neg", [.rm .s8 rm])
  | .negRmv p rm => ("neg", [.rm p.opSize.size rm])
  | .mulRm8 _ rm => ("mul", [.rm .s8 rm])
  | .mulRmv p rm => ("mul", [.rm p.opSize.size rm])
  | .imulRm8 _ rm => ("imul", [.rm .s8 rm])
  | .imulRmv p rm => ("imul", [.rm p.opSize.size rm])
  | .divRm8 _ rm => ("div", [.rm .s8 rm])
  | .divRmv p rm => ("div", [.rm p.opSize.size rm])
  | .idivRm8 _ rm => ("idiv", [.rm .s8 rm])
  | .idivRmv p rm => ("idiv", [.rm p.opSize.size rm])
  | .clc _ => ("clc", [])
  | .stc _ => ("stc", [])
  | .incRm8 _ rm => ("inc", [.rm .s8 rm])
  | .decRm8 _ rm => ("dec", [.rm .s8 rm])
  | .incRmv p rm => ("inc", [.rm p.opSize.size rm])
  | .decRmv p rm => ("dec", [.rm p.opSize.size rm])
  | .callRmv p rm => ("call", [.rm p.opSize.size rm])
  | .jmpRmv p rm => ("jmp", [.rm p.opSize.size rm])
  | .pushRmv p rm => ("push", [.rm p.opSize.size rm])
  | .ud2 _ => ("ud2", [])
  | .jccRelz _ cc rel => ("j" ++ condName cc, [.target (Immz.sext rel)])
  | .setccRm8 _ cc _ rm => ("set" ++ condName cc, [.rm .s8 rm])
  | .imulRvRmv p reg rm => ("imul", [.reg p.opSize.size reg, .rm p.opSize.size rm])
  | .movzxRvRm8 p reg rm => ("movzx", [.reg p.opSize.size reg, .rm .s8 rm])
  | .movzxRvRm16 p reg rm => ("movzx", [.reg p.opSize.size reg, .rm .s16 rm])
  | .movsxRvRm8 p reg rm => ("movsx", [.reg p.opSize.size reg, .rm .s8 rm])
  | .movsxRvRm16 p reg rm => ("movsx", [.reg p.opSize.size reg, .rm .s16 rm])

/-- The text of an instruction (R147). -/
def Instr.text (i : Instr) : String :=
  let a := Instr.asm i
  let args := a.2.map (AsmArg.text i.pfx i.len)
  if args.isEmpty then a.1 else a.1 ++ " " ++ ", ".intercalate args

/-- `disassemble(bytes, operandSizeFlag)` (40_unit_protocol.md R189). -/
def disassemble (bytes : List Byte) (flag : Bool) : QueryResult String := (query bytes flag).map Instr.text

end Sys2Proof.Machine
end

