-- ==== Sys2Proof/WellFormed.lean ====
section
/-! DEFINITION. WellFormed: the instructions that an encoding can denote. The syntax has terms that no
byte string decodes to (a 32-bit address form under 16-bit addressing, [BP] without displacement, two
different overrides, sixteen bytes); each check below refuses one kind of them. -/

namespace Sys2Proof

/-- Every segment override among the prefixes is the first one (30_encoding.md R108). -/
def Prefixes.wf (p : Prefixes) : Bool :=
  p.list.all fun q =>
    match q with
    | .seg s => segOverride p.list == some s
    | .opSize => true
    | .addrSize => true

/-- The memory form belongs to the address size, and is no other form's encoding (30_encoding.md R114
to R124): [BP] and [EBP] without displacement encode the direct forms, ESP as a base encodes SIB. -/
def MemForm.wf (z : OpSize) : MemForm → Bool
  | .based16 b d => z == .w16 && !(b == .bp && d == .none)
  | .direct16 _ => z == .w16
  | .based32 b d => z == .w32 && b != .esp && !(b == .ebp && d == .none)
  | .direct32 _ => z == .w32
  | .sib _ _ b d => z == .w32 && !(b == .ebp && d == .none)
  | .sibDirect _ _ _ => z == .w32

/-- The r/m operand's memory form belongs to the address size. -/
def Rm.wf (z : OpSize) : Rm → Bool
  | .reg _ => true
  | .mem m => m.wf z

/-- The size of an `iz`, `relz` or `moffs` field. -/
def Immz.opSize : Immz → OpSize
  | .i16 _ => .w16
  | .i32 _ => .w32

/-- `iz` and `relz` have the operand size, `moffs` the address size (30_encoding.md R130). -/
def ImmField.wf (p : Prefixes) : ImmField → Bool
  | .none => true
  | .b _ => true
  | .w _ => true
  | .z v => v.opSize == p.opSize
  | .m v => v.opSize == p.addrSize

/-- The checks on a layout: prefixes, ModRM operand, immediate, and at most 15 bytes
(30_encoding.md R104). -/
def Layout.wf (l : Layout) : Bool :=
  l.pfx.wf && (l.modrm.all fun x => x.2.wf l.pfx.addrSize) && l.imm.wf l.pfx && decide (l.len ≤ maxInsnLen)

/-- An instruction that an encoding denotes. -/
def Instr.wf (i : Instr) : Bool := i.layout.wf

end Sys2Proof
end

