-- ==== Sys2Proof/Safety.lean ====
section
/-! DEFINITION. Safety: the terms the claims use. When an operand can be read and written, what it holds,
the state with it changed; and the invariant of the machine: the memory in its canonical form, the
parameters in their bounds, the status bits in one place only, the privilege level that of the mode, and
the running block coherent. -/

namespace Sys2Proof.Machine

/-! ### Operands and the stack -/

/-- The oracle lets the operand be read (20_memory.md R76). A register always can be. -/
def State.readable (s : State) (z : Size) : Ref → Bool
  | .reg _ => true
  | .mem g ea => s.access .read g (ea.off s.gpr) z.bytes == .ok

/-- The oracle lets the operand be written (20_memory.md R77), and the bytes are none of the running
block's (70_reset_and_hazards.md R460). A register always can be. -/
def State.writable (s : State) (z : Size) : Ref → Bool
  | .reg _ => true
  | .mem g ea =>
    s.access .write g (ea.off s.gpr) z.bytes == .ok && !s.hitsBlock (s.lin g (ea.off s.gpr)) z.bytes

/-- What the operand holds (10_state.md R55). -/
def State.operand (s : State) (z : Size) : Ref → BitVec z.bits
  | .reg r => s.gpr.view z r
  | .mem g ea => BitVec.ofNat z.bits (leValue (Memory.readBytes s.mem (s.lin g (ea.off s.gpr)) z.bytes))

/-- The state with the operand holding v (10_state.md R55). -/
def State.withOperand (s : State) (z : Size) (ref : Ref) (v : BitVec z.bits) : State :=
  match ref with
  | .reg r => { s with gpr := s.gpr.setView z r v }
  | .mem g ea =>
    { s with mem := Memory.writeBytes s.mem (s.lin g (ea.off s.gpr)) (leBytes z.bytes v.toNat) }

/-- The oracle lets the top of the stack be read at width N (45_data_move.md R318). -/
def State.canPop (s : State) (z : Size) : Bool := s.access .read .ss s.sp z.bytes == .ok

/-- The oracle lets a value of width N be pushed, and the bytes are none of the running block's. -/
def State.canPush (s : State) (z : Size) : Bool :=
  s.access .write .ss (s.pushSp z.bytes) z.bytes == .ok &&
    !s.hitsBlock (s.lin .ss (s.pushSp z.bytes)) z.bytes

/-- The value at the top of the stack. -/
def State.top (s : State) (z : Size) : BitVec z.bits :=
  BitVec.ofNat z.bits (leValue (Memory.readBytes s.mem (s.lin .ss s.sp) z.bytes))

/-- The general registers with the stack pointer at t: ESP, or SP alone (45_data_move.md R318). -/
def State.gprWithSp (s : State) (t : Word) : Gprs :=
  if s.stackWide then s.gpr.set .esp t else s.gpr.setView .s16 .esp (t.extractLsb' 0 16)

/-- The oracle lets control pass to t (46_control.md R333). -/
def State.canBranch (s : State) (t : Word) : Bool := s.access .branch .cs t 1 == .ok

/-- The state after the instruction i of state s completed with NoBranch, `t` holding what it changed. -/
def State.advance (s : State) (i : Instr) (t : State) : State :=
  { t with eip := s.nextEip i.len, lastTag := .noBranch }

/-! ### The invariant -/

/-- Each unit starts where the one before it ends (40_unit_protocol.md R175). -/
def chained (start : Word) : List InsnUnit → Bool
  | [] => true
  | u :: l => u.start == start && chained (start + BitVec.ofNat 32 u.instr.len) l

/-- Every unit but the last is no terminator, and none is the reserved UD2 (40_unit_protocol.md R177). -/
def endsAtTerminator : List InsnUnit → Bool
  | [] => true
  | [u] => Instr.kind u.instr != .reserved
  | u :: v :: l => Instr.kind u.instr == .plain && endsAtTerminator (v :: l)

/-- The running block is the state's: of its mode, its units in sequence from its entry, its next unit at
eip, and no report while it runs (40_unit_protocol.md R165, R175, R178). -/
def RunningBlock.coherent (b : RunningBlock) (s : State) : Bool :=
  b.mode == s.mode && chained b.entry (b.done ++ b.todo) && endsAtTerminator (b.done ++ b.todo) &&
    (b.todo.head?.map InsnUnit.start == some s.eip) && s.report == none

/-- The invariant of the machine. -/
def State.wf (s : State) : Bool :=
  Memory.wf s.mem && s.params.wf && (s.eflagsOther &&& statusMask == 0) &&
    Mode.allowsCpl s.mode s.cpl.toNat && s.block.all fun b => RunningBlock.coherent b s

/-! ### Runs of one block -/

/-- Step until no block is running, at most n times: the state in which the block has ended or the
machine is refused. -/
def runBlock : Nat → State → State
  | 0, s => s
  | n + 1, s =>
    match step s with
    | .next t => if t.block.isNone then t else runBlock n t
    | .fault _ => s
    | .refused r => s.refuse r

end Sys2Proof.Machine
end

