-- ==== Sys2Proof/Certificates/Slice0/Obligations.lean ====
section
/-! DEFINITION. Obligations: the statements for the provers. First the vocabulary of the claims
(Sys2Proof.Claims): the rows grouped by shape, and the formulas of the rules written out again from
spec/ and not taken from the meanings. Then one definition per statement; its docstring names the rule. -/

namespace Sys2Proof.Claims

open Sys2Proof.Machine

/-! ### Operands -/

/-- A source: a reference, or an immediate at the operand width. -/
abbrev Source (z : Size) := Ref ⊕ BitVec z.bits

/-- The source can be read. -/
def srcReadable (s : State) (z : Size) : Source z → Bool
  | .inl r => s.readable z r
  | .inr _ => true

/-- The value of the source. -/
def srcValue (s : State) (z : Size) : Source z → BitVec z.bits
  | .inl r => s.operand z r
  | .inr v => v

/-- An `iz` immediate at the operand width (30_encoding.md R130). -/
def immValue (z : Size) : Immz → BitVec z.bits
  | .i16 v => v.setWidth z.bits
  | .i32 v => v.setWidth z.bits

/-- CL as a count (43_shift_rotate.md R250). -/
def clOf (s : State) : Nat := s.gpr.ecx.toNat % 256

/-! ### Rows by shape -/

/-- The eight operations of 41_arith.md R200. -/
inductive AluName where
  | add | or | adc | sbb | and | sub | xor | cmp
  deriving DecidableEq, Repr

/-- The nine forms of 41_arith.md R200. -/
inductive AluForm where
  | rm8R8 (reg : Reg) (rm : Rm)
  | rmvRv (reg : Reg) (rm : Rm)
  | r8Rm8 (reg : Reg) (rm : Rm)
  | rvRmv (reg : Reg) (rm : Rm)
  | alImm8 (v : BitVec 8)
  | eaxImmz (v : Immz)
  | rm8Imm8 (al : Opcode80) (rm : Rm) (v : BitVec 8)
  | rmvImmz (rm : Rm) (v : Immz)
  | rmvImm8 (rm : Rm) (v : BitVec 8)
  deriving DecidableEq, Repr

/-- The 72 rows of 41_arith.md R200: operation by form. -/
def aluInstr (p : Prefixes) : AluName → AluForm → Instr
  | .add, .rm8R8 reg rm => .addRm8R8 p reg rm
  | .add, .rmvRv reg rm => .addRmvRv p reg rm
  | .add, .r8Rm8 reg rm => .addR8Rm8 p reg rm
  | .add, .rvRmv reg rm => .addRvRmv p reg rm
  | .add, .alImm8 v => .addAlImm8 p v
  | .add, .eaxImmz v => .addEaxImmz p v
  | .add, .rm8Imm8 al rm v => .addRm8Imm8 p al rm v
  | .add, .rmvImmz rm v => .addRmvImmz p rm v
  | .add, .rmvImm8 rm v => .addRmvImm8 p rm v
  | .or, .rm8R8 reg rm => .orRm8R8 p reg rm
  | .or, .rmvRv reg rm => .orRmvRv p reg rm
  | .or, .r8Rm8 reg rm => .orR8Rm8 p reg rm
  | .or, .rvRmv reg rm => .orRvRmv p reg rm
  | .or, .alImm8 v => .orAlImm8 p v
  | .or, .eaxImmz v => .orEaxImmz p v
  | .or, .rm8Imm8 al rm v => .orRm8Imm8 p al rm v
  | .or, .rmvImmz rm v => .orRmvImmz p rm v
  | .or, .rmvImm8 rm v => .orRmvImm8 p rm v
  | .adc, .rm8R8 reg rm => .adcRm8R8 p reg rm
  | .adc, .rmvRv reg rm => .adcRmvRv p reg rm
  | .adc, .r8Rm8 reg rm => .adcR8Rm8 p reg rm
  | .adc, .rvRmv reg rm => .adcRvRmv p reg rm
  | .adc, .alImm8 v => .adcAlImm8 p v
  | .adc, .eaxImmz v => .adcEaxImmz p v
  | .adc, .rm8Imm8 al rm v => .adcRm8Imm8 p al rm v
  | .adc, .rmvImmz rm v => .adcRmvImmz p rm v
  | .adc, .rmvImm8 rm v => .adcRmvImm8 p rm v
  | .sbb, .rm8R8 reg rm => .sbbRm8R8 p reg rm
  | .sbb, .rmvRv reg rm => .sbbRmvRv p reg rm
  | .sbb, .r8Rm8 reg rm => .sbbR8Rm8 p reg rm
  | .sbb, .rvRmv reg rm => .sbbRvRmv p reg rm
  | .sbb, .alImm8 v => .sbbAlImm8 p v
  | .sbb, .eaxImmz v => .sbbEaxImmz p v
  | .sbb, .rm8Imm8 al rm v => .sbbRm8Imm8 p al rm v
  | .sbb, .rmvImmz rm v => .sbbRmvImmz p rm v
  | .sbb, .rmvImm8 rm v => .sbbRmvImm8 p rm v
  | .and, .rm8R8 reg rm => .andRm8R8 p reg rm
  | .and, .rmvRv reg rm => .andRmvRv p reg rm
  | .and, .r8Rm8 reg rm => .andR8Rm8 p reg rm
  | .and, .rvRmv reg rm => .andRvRmv p reg rm
  | .and, .alImm8 v => .andAlImm8 p v
  | .and, .eaxImmz v => .andEaxImmz p v
  | .and, .rm8Imm8 al rm v => .andRm8Imm8 p al rm v
  | .and, .rmvImmz rm v => .andRmvImmz p rm v
  | .and, .rmvImm8 rm v => .andRmvImm8 p rm v
  | .sub, .rm8R8 reg rm => .subRm8R8 p reg rm
  | .sub, .rmvRv reg rm => .subRmvRv p reg rm
  | .sub, .r8Rm8 reg rm => .subR8Rm8 p reg rm
  | .sub, .rvRmv reg rm => .subRvRmv p reg rm
  | .sub, .alImm8 v => .subAlImm8 p v
  | .sub, .eaxImmz v => .subEaxImmz p v
  | .sub, .rm8Imm8 al rm v => .subRm8Imm8 p al rm v
  | .sub, .rmvImmz rm v => .subRmvImmz p rm v
  | .sub, .rmvImm8 rm v => .subRmvImm8 p rm v
  | .xor, .rm8R8 reg rm => .xorRm8R8 p reg rm
  | .xor, .rmvRv reg rm => .xorRmvRv p reg rm
  | .xor, .r8Rm8 reg rm => .xorR8Rm8 p reg rm
  | .xor, .rvRmv reg rm => .xorRvRmv p reg rm
  | .xor, .alImm8 v => .xorAlImm8 p v
  | .xor, .eaxImmz v => .xorEaxImmz p v
  | .xor, .rm8Imm8 al rm v => .xorRm8Imm8 p al rm v
  | .xor, .rmvImmz rm v => .xorRmvImmz p rm v
  | .xor, .rmvImm8 rm v => .xorRmvImm8 p rm v
  | .cmp, .rm8R8 reg rm => .cmpRm8R8 p reg rm
  | .cmp, .rmvRv reg rm => .cmpRmvRv p reg rm
  | .cmp, .r8Rm8 reg rm => .cmpR8Rm8 p reg rm
  | .cmp, .rvRmv reg rm => .cmpRvRmv p reg rm
  | .cmp, .alImm8 v => .cmpAlImm8 p v
  | .cmp, .eaxImmz v => .cmpEaxImmz p v
  | .cmp, .rm8Imm8 al rm v => .cmpRm8Imm8 p al rm v
  | .cmp, .rmvImmz rm v => .cmpRmvImmz p rm v
  | .cmp, .rmvImm8 rm v => .cmpRmvImm8 p rm v

/-- The width N of a form (41_arith.md R200). -/
def AluForm.size (p : Prefixes) : AluForm → Size
  | .rm8R8 _ _ => .s8
  | .rmvRv _ _ => p.opSize.size
  | .r8Rm8 _ _ => .s8
  | .rvRmv _ _ => p.opSize.size
  | .alImm8 _ => .s8
  | .eaxImmz _ => p.opSize.size
  | .rm8Imm8 _ _ _ => .s8
  | .rmvImmz _ _ => p.opSize.size
  | .rmvImm8 _ _ => p.opSize.size

/-- dst of a form (41_arith.md R200). -/
def AluForm.dst (p : Prefixes) : AluForm → Ref
  | .rm8R8 _ rm => rmRef p rm
  | .rmvRv _ rm => rmRef p rm
  | .r8Rm8 reg _ => .reg reg
  | .rvRmv reg _ => .reg reg
  | .alImm8 _ => .reg .eax
  | .eaxImmz _ => .reg .eax
  | .rm8Imm8 _ rm _ => rmRef p rm
  | .rmvImmz rm _ => rmRef p rm
  | .rmvImm8 rm _ => rmRef p rm

/-- src of a form (41_arith.md R200). -/
def AluForm.src (p : Prefixes) : (f : AluForm) → Source (f.size p)
  | .rm8R8 reg _ => .inl (.reg reg)
  | .rmvRv reg _ => .inl (.reg reg)
  | .r8Rm8 _ rm => .inl (rmRef p rm)
  | .rvRmv _ rm => .inl (rmRef p rm)
  | .alImm8 v => .inr v
  | .eaxImmz v => .inr (immValue p.opSize.size v)
  | .rm8Imm8 _ _ v => .inr v
  | .rmvImmz _ v => .inr (immValue p.opSize.size v)
  | .rmvImm8 _ v => .inr (v.signExtend p.opSize.size.bits)

/-- The six forms of TEST (42_logic.md R233). -/
inductive TestForm where
  | rm8R8 (reg : Reg) (rm : Rm)
  | rmvRv (reg : Reg) (rm : Rm)
  | alImm8 (v : BitVec 8)
  | eaxImmz (v : Immz)
  | rm8Imm8 (rm : Rm) (v : BitVec 8)
  | rmvImmz (rm : Rm) (v : Immz)
  deriving DecidableEq, Repr

/-- The rows of TEST. -/
def testInstr (p : Prefixes) : TestForm → Instr
  | .rm8R8 reg rm => .testRm8R8 p reg rm
  | .rmvRv reg rm => .testRmvRv p reg rm
  | .alImm8 v => .testAlImm8 p v
  | .eaxImmz v => .testEaxImmz p v
  | .rm8Imm8 rm v => .testRm8Imm8 p rm v
  | .rmvImmz rm v => .testRmvImmz p rm v

/-- The width of a form of TEST. -/
def TestForm.size (p : Prefixes) : TestForm → Size
  | .rm8R8 _ _ => .s8
  | .rmvRv _ _ => p.opSize.size
  | .alImm8 _ => .s8
  | .eaxImmz _ => p.opSize.size
  | .rm8Imm8 _ _ => .s8
  | .rmvImmz _ _ => p.opSize.size

/-- src1 of a form of TEST. -/
def TestForm.src1 (p : Prefixes) : TestForm → Ref
  | .rm8R8 _ rm => rmRef p rm
  | .rmvRv _ rm => rmRef p rm
  | .alImm8 _ => .reg .eax
  | .eaxImmz _ => .reg .eax
  | .rm8Imm8 rm _ => rmRef p rm
  | .rmvImmz rm _ => rmRef p rm

/-- src2 of a form of TEST. -/
def TestForm.src2 (p : Prefixes) : (f : TestForm) → Source (f.size p)
  | .rm8R8 reg _ => .inl (.reg reg)
  | .rmvRv reg _ => .inl (.reg reg)
  | .alImm8 v => .inr v
  | .eaxImmz v => .inr (immValue p.opSize.size v)
  | .rm8Imm8 _ v => .inr v
  | .rmvImmz _ v => .inr (immValue p.opSize.size v)

/-- The forms with one operand: the register in the opcode, r/m8, r/mv (41_arith.md R206, R207). -/
inductive OneForm where
  | rv (r : Reg)
  | rm8 (rm : Rm)
  | rmv (rm : Rm)
  deriving DecidableEq, Repr

/-- The rows of INC. -/
def incInstr (p : Prefixes) : OneForm → Instr
  | .rv r => .incRv p r
  | .rm8 rm => .incRm8 p rm
  | .rmv rm => .incRmv p rm

/-- The rows of DEC. -/
def decInstr (p : Prefixes) : OneForm → Instr
  | .rv r => .decRv p r
  | .rm8 rm => .decRm8 p rm
  | .rmv rm => .decRmv p rm

/-- The width of a one-operand form. -/
def OneForm.size (p : Prefixes) : OneForm → Size
  | .rv _ => p.opSize.size
  | .rm8 _ => .s8
  | .rmv _ => p.opSize.size

/-- The operand of a one-operand form. -/
def OneForm.ref (p : Prefixes) : OneForm → Ref
  | .rv r => .reg r
  | .rm8 rm => rmRef p rm
  | .rmv rm => rmRef p rm

/-- The two forms of group 3, F6 and F7 (30_encoding.md R137). -/
inductive F6Form where
  | rm8 (rm : Rm)
  | rmv (rm : Rm)
  deriving DecidableEq, Repr

/-- The width of a form of group 3. -/
def F6Form.size (p : Prefixes) : F6Form → Size
  | .rm8 _ => .s8
  | .rmv _ => p.opSize.size

/-- The operand of a form of group 3. -/
def F6Form.ref (p : Prefixes) : F6Form → Ref
  | .rm8 rm => rmRef p rm
  | .rmv rm => rmRef p rm

/-- The operations of group 3 but TEST (30_encoding.md R137). -/
inductive F6Name where
  | not | neg | mul | imul | div | idiv
  deriving DecidableEq, Repr

/-- The rows of group 3 but TEST. -/
def f6Instr (p : Prefixes) : F6Name → F6Form → Instr
  | .not, .rm8 rm => .notRm8 p rm
  | .not, .rmv rm => .notRmv p rm
  | .neg, .rm8 rm => .negRm8 p rm
  | .neg, .rmv rm => .negRmv p rm
  | .mul, .rm8 rm => .mulRm8 p rm
  | .mul, .rmv rm => .mulRmv p rm
  | .imul, .rm8 rm => .imulRm8 p rm
  | .imul, .rmv rm => .imulRmv p rm
  | .div, .rm8 rm => .divRm8 p rm
  | .div, .rmv rm => .divRmv p rm
  | .idiv, .rm8 rm => .idivRm8 p rm
  | .idiv, .rmv rm => .idivRmv p rm

/-- The seven operations of group 2 (30_encoding.md R136). -/
inductive ShiftName where
  | rol | ror | rcl | rcr | shl | shr | sar
  deriving DecidableEq, Repr

/-- The six forms of group 2 (43_shift_rotate.md R250). -/
inductive ShiftForm where
  | rm8Imm8 (rm : Rm) (v : BitVec 8)
  | rmvImm8 (rm : Rm) (v : BitVec 8)
  | rm8One (rm : Rm)
  | rmvOne (rm : Rm)
  | rm8Cl (rm : Rm)
  | rmvCl (rm : Rm)
  deriving DecidableEq, Repr

/-- The 42 rows of group 2: operation by form (43_shift_rotate.md R250). -/
def shiftInstr (p : Prefixes) : ShiftName → ShiftForm → Instr
  | .rol, .rm8Imm8 rm v => .rolRm8Imm8 p rm v
  | .rol, .rmvImm8 rm v => .rolRmvImm8 p rm v
  | .rol, .rm8One rm => .rolRm8One p rm
  | .rol, .rmvOne rm => .rolRmvOne p rm
  | .rol, .rm8Cl rm => .rolRm8Cl p rm
  | .rol, .rmvCl rm => .rolRmvCl p rm
  | .ror, .rm8Imm8 rm v => .rorRm8Imm8 p rm v
  | .ror, .rmvImm8 rm v => .rorRmvImm8 p rm v
  | .ror, .rm8One rm => .rorRm8One p rm
  | .ror, .rmvOne rm => .rorRmvOne p rm
  | .ror, .rm8Cl rm => .rorRm8Cl p rm
  | .ror, .rmvCl rm => .rorRmvCl p rm
  | .rcl, .rm8Imm8 rm v => .rclRm8Imm8 p rm v
  | .rcl, .rmvImm8 rm v => .rclRmvImm8 p rm v
  | .rcl, .rm8One rm => .rclRm8One p rm
  | .rcl, .rmvOne rm => .rclRmvOne p rm
  | .rcl, .rm8Cl rm => .rclRm8Cl p rm
  | .rcl, .rmvCl rm => .rclRmvCl p rm
  | .rcr, .rm8Imm8 rm v => .rcrRm8Imm8 p rm v
  | .rcr, .rmvImm8 rm v => .rcrRmvImm8 p rm v
  | .rcr, .rm8One rm => .rcrRm8One p rm
  | .rcr, .rmvOne rm => .rcrRmvOne p rm
  | .rcr, .rm8Cl rm => .rcrRm8Cl p rm
  | .rcr, .rmvCl rm => .rcrRmvCl p rm
  | .shl, .rm8Imm8 rm v => .shlRm8Imm8 p rm v
  | .shl, .rmvImm8 rm v => .shlRmvImm8 p rm v
  | .shl, .rm8One rm => .shlRm8One p rm
  | .shl, .rmvOne rm => .shlRmvOne p rm
  | .shl, .rm8Cl rm => .shlRm8Cl p rm
  | .shl, .rmvCl rm => .shlRmvCl p rm
  | .shr, .rm8Imm8 rm v => .shrRm8Imm8 p rm v
  | .shr, .rmvImm8 rm v => .shrRmvImm8 p rm v
  | .shr, .rm8One rm => .shrRm8One p rm
  | .shr, .rmvOne rm => .shrRmvOne p rm
  | .shr, .rm8Cl rm => .shrRm8Cl p rm
  | .shr, .rmvCl rm => .shrRmvCl p rm
  | .sar, .rm8Imm8 rm v => .sarRm8Imm8 p rm v
  | .sar, .rmvImm8 rm v => .sarRmvImm8 p rm v
  | .sar, .rm8One rm => .sarRm8One p rm
  | .sar, .rmvOne rm => .sarRmvOne p rm
  | .sar, .rm8Cl rm => .sarRm8Cl p rm
  | .sar, .rmvCl rm => .sarRmvCl p rm

/-- The width of a form of group 2. -/
def ShiftForm.size (p : Prefixes) : ShiftForm → Size
  | .rm8Imm8 _ _ => .s8
  | .rmvImm8 _ _ => p.opSize.size
  | .rm8One _ => .s8
  | .rmvOne _ => p.opSize.size
  | .rm8Cl _ => .s8
  | .rmvCl _ => p.opSize.size

/-- dst of a form of group 2. -/
def ShiftForm.dst (p : Prefixes) : ShiftForm → Ref
  | .rm8Imm8 rm _ => rmRef p rm
  | .rmvImm8 rm _ => rmRef p rm
  | .rm8One rm => rmRef p rm
  | .rmvOne rm => rmRef p rm
  | .rm8Cl rm => rmRef p rm
  | .rmvCl rm => rmRef p rm

/-- The raw count of a form of group 2 (43_shift_rotate.md R250). -/
def ShiftForm.count (s : State) : ShiftForm → Nat
  | .rm8Imm8 _ v => v.toNat
  | .rmvImm8 _ v => v.toNat
  | .rm8One _ => 1
  | .rmvOne _ => 1
  | .rm8Cl _ => clOf s
  | .rmvCl _ => clOf s

/-- The masked count of RCL and RCR (43_shift_rotate.md R250). -/
def carryCount (s : State) (c : Nat) : Nat := if s.params.rotCountMask5 then c % 32 else c

/-- The forms of MOV (45_data_move.md R300 to R303). -/
inductive MovForm where
  | rm8R8 (reg : Reg) (rm : Rm)
  | rmvRv (reg : Reg) (rm : Rm)
  | r8Rm8 (reg : Reg) (rm : Rm)
  | rvRmv (reg : Reg) (rm : Rm)
  | r8Imm8 (r : Reg) (v : BitVec 8)
  | rvImmz (r : Reg) (v : Immz)
  | rm8Imm8 (rm : Rm) (v : BitVec 8)
  | rmvImmz (rm : Rm) (v : Immz)
  | alMoffs8 (off : Immz)
  | eaxMoffsv (off : Immz)
  | moffs8Al (off : Immz)
  | moffsvEax (off : Immz)
  deriving DecidableEq, Repr

/-- The rows of MOV. -/
def movInstr (p : Prefixes) : MovForm → Instr
  | .rm8R8 reg rm => .movRm8R8 p reg rm
  | .rmvRv reg rm => .movRmvRv p reg rm
  | .r8Rm8 reg rm => .movR8Rm8 p reg rm
  | .rvRmv reg rm => .movRvRmv p reg rm
  | .r8Imm8 r v => .movR8Imm8 p r v
  | .rvImmz r v => .movRvImmz p r v
  | .rm8Imm8 rm v => .movRm8Imm8 p rm v
  | .rmvImmz rm v => .movRmvImmz p rm v
  | .alMoffs8 off => .movAlMoffs8 p off
  | .eaxMoffsv off => .movEaxMoffsv p off
  | .moffs8Al off => .movMoffs8Al p off
  | .moffsvEax off => .movMoffsvEax p off

/-- The width of a form of MOV. -/
def MovForm.size (p : Prefixes) : MovForm → Size
  | .rm8R8 _ _ => .s8
  | .rmvRv _ _ => p.opSize.size
  | .r8Rm8 _ _ => .s8
  | .rvRmv _ _ => p.opSize.size
  | .r8Imm8 _ _ => .s8
  | .rvImmz _ _ => p.opSize.size
  | .rm8Imm8 _ _ => .s8
  | .rmvImmz _ _ => p.opSize.size
  | .alMoffs8 _ => .s8
  | .eaxMoffsv _ => p.opSize.size
  | .moffs8Al _ => .s8
  | .moffsvEax _ => p.opSize.size

/-- dst of a form of MOV. -/
def MovForm.dst (p : Prefixes) : MovForm → Ref
  | .rm8R8 _ rm => rmRef p rm
  | .rmvRv _ rm => rmRef p rm
  | .r8Rm8 reg _ => .reg reg
  | .rvRmv reg _ => .reg reg
  | .r8Imm8 r _ => .reg r
  | .rvImmz r _ => .reg r
  | .rm8Imm8 rm _ => rmRef p rm
  | .rmvImmz rm _ => rmRef p rm
  | .alMoffs8 _ => .reg .eax
  | .eaxMoffsv _ => .reg .eax
  | .moffs8Al off => moffsRef p off
  | .moffsvEax off => moffsRef p off

/-- src of a form of MOV. -/
def MovForm.src (p : Prefixes) : (f : MovForm) → Source (f.size p)
  | .rm8R8 reg _ => .inl (.reg reg)
  | .rmvRv reg _ => .inl (.reg reg)
  | .r8Rm8 _ rm => .inl (rmRef p rm)
  | .rvRmv _ rm => .inl (rmRef p rm)
  | .r8Imm8 _ v => .inr v
  | .rvImmz _ v => .inr (immValue p.opSize.size v)
  | .rm8Imm8 _ v => .inr v
  | .rmvImmz _ v => .inr (immValue p.opSize.size v)
  | .alMoffs8 off => .inl (moffsRef p off)
  | .eaxMoffsv off => .inl (moffsRef p off)
  | .moffs8Al _ => .inl (.reg .eax)
  | .moffsvEax _ => .inl (.reg .eax)

/-- The forms of XCHG (45_data_move.md R307, R308). -/
inductive XchgForm where
  | rm8R8 (reg : Reg) (rm : Rm)
  | rmvRv (reg : Reg) (rm : Rm)
  | eaxEcx | eaxEdx | eaxEbx | eaxEsp | eaxEbp | eaxEsi | eaxEdi
  deriving DecidableEq, Repr

/-- The rows of XCHG. -/
def xchgInstr (p : Prefixes) : XchgForm → Instr
  | .rm8R8 reg rm => .xchgRm8R8 p reg rm
  | .rmvRv reg rm => .xchgRmvRv p reg rm
  | .eaxEcx => .xchgEaxEcx p
  | .eaxEdx => .xchgEaxEdx p
  | .eaxEbx => .xchgEaxEbx p
  | .eaxEsp => .xchgEaxEsp p
  | .eaxEbp => .xchgEaxEbp p
  | .eaxEsi => .xchgEaxEsi p
  | .eaxEdi => .xchgEaxEdi p

/-- The width of a form of XCHG. -/
def XchgForm.size (p : Prefixes) : XchgForm → Size
  | .rm8R8 _ _ => .s8
  | .rmvRv _ _ => p.opSize.size
  | .eaxEcx => p.opSize.size
  | .eaxEdx => p.opSize.size
  | .eaxEbx => p.opSize.size
  | .eaxEsp => p.opSize.size
  | .eaxEbp => p.opSize.size
  | .eaxEsi => p.opSize.size
  | .eaxEdi => p.opSize.size

/-- op1 of a form of XCHG. -/
def XchgForm.op1 (p : Prefixes) : XchgForm → Ref
  | .rm8R8 _ rm => rmRef p rm
  | .rmvRv _ rm => rmRef p rm
  | .eaxEcx => .reg .eax
  | .eaxEdx => .reg .eax
  | .eaxEbx => .reg .eax
  | .eaxEsp => .reg .eax
  | .eaxEbp => .reg .eax
  | .eaxEsi => .reg .eax
  | .eaxEdi => .reg .eax

/-- op2 of a form of XCHG, always a register. -/
def XchgForm.op2 : XchgForm → Reg
  | .rm8R8 reg _ => reg
  | .rmvRv reg _ => reg
  | .eaxEcx => .ecx
  | .eaxEdx => .edx
  | .eaxEbx => .ebx
  | .eaxEsp => .esp
  | .eaxEbp => .ebp
  | .eaxEsi => .esi
  | .eaxEdi => .edi

/-- The forms of PUSH (45_data_move.md R319 to R321). -/
inductive PushForm where
  | rv (r : Reg)
  | immz (v : Immz)
  | imm8 (v : BitVec 8)
  | rmv (rm : Rm)
  deriving DecidableEq, Repr

/-- The rows of PUSH. -/
def pushInstr (p : Prefixes) : PushForm → Instr
  | .rv r => .pushRv p r
  | .immz v => .pushImmz p v
  | .imm8 v => .pushImm8 p v
  | .rmv rm => .pushRmv p rm

/-- The source of a form of PUSH. -/
def PushForm.src (p : Prefixes) : PushForm → Source p.opSize.size
  | .rv r => .inl (.reg r)
  | .immz v => .inr (immValue p.opSize.size v)
  | .imm8 v => .inr (v.signExtend p.opSize.size.bits)
  | .rmv rm => .inl (rmRef p rm)

/-! ### The flag generator (40_unit_protocol.md R169 to R173) -/

/-- The low eight bits of r hold an even number of ones (R169). -/
def evenLow {n : Nat} (r : BitVec n) : Bool :=
  !(r.getLsbD 0 ^^ r.getLsbD 1 ^^ r.getLsbD 2 ^^ r.getLsbD 3 ^^ r.getLsbD 4 ^^ r.getLsbD 5 ^^ r.getLsbD 6 ^^
    r.getLsbD 7)

/-- a + b + cin at width n (R171). -/
def sum {n : Nat} (a b : BitVec n) (cin : Bool) : BitVec n := a + b + BitVec.ofNat n cin.toNat

/-- The flags of `addFlags` (R171). -/
def sumFlags {n : Nat} (a b : BitVec n) (cin : Bool) : Flags where
  cf := decide (2 ^ n ≤ a.toNat + b.toNat + cin.toNat)
  pf := evenLow (sum a b cin)
  af := (a ^^^ b ^^^ sum a b cin).getLsbD 4
  zf := decide (sum a b cin = 0)
  sf := (sum a b cin).getLsbD (n - 1)
  of := decide (a.msb = b.msb ∧ (sum a b cin).msb ≠ a.msb)

/-- a - b - bin at width n (R172). -/
def difference {n : Nat} (a b : BitVec n) (bin : Bool) : BitVec n := a - b - BitVec.ofNat n bin.toNat

/-- The flags of `subFlags` (R172). -/
def differenceFlags {n : Nat} (a b : BitVec n) (bin : Bool) : Flags where
  cf := decide (a.toNat < b.toNat + bin.toNat)
  pf := evenLow (difference a b bin)
  af := (a ^^^ b ^^^ difference a b bin).getLsbD 4
  zf := decide (difference a b bin = 0)
  sf := (difference a b bin).getLsbD (n - 1)
  of := decide (a.msb ≠ b.msb ∧ (difference a b bin).msb ≠ a.msb)

/-- The flags of `logicFlags`: AF is as before (R173). -/
def logicalFlags {n : Nat} (r : BitVec n) (old : Flags) : Flags where
  cf := false
  pf := evenLow r
  af := old.af
  zf := decide (r = 0)
  sf := r.getLsbD (n - 1)
  of := false

/-- SF, ZF, PF of r, CF and OF as given, AF as before (43_shift_rotate.md R255 to R257). -/
def shiftFlags {n : Nat} (r : BitVec n) (cf of : Bool) (old : Flags) : Flags where
  cf := cf
  pf := evenLow r
  af := old.af
  zf := decide (r = 0)
  sf := r.getLsbD (n - 1)
  of := of

/-- CF and OF as given, the others as before (43_shift_rotate.md R251 to R254). -/
def rotateFlags (cf of : Bool) (old : Flags) : Flags := { old with cf := cf, of := of }

/-! ### Multiply and divide (44_muldiv.md) -/

/-- The registers after a product of high half `hi` and low half `lo`: AX, DX:AX or EDX:EAX (R281, R282). -/
def productGpr (g : Gprs) (z : Size) (hi lo : BitVec z.bits) : Gprs :=
  match z with
  | .s8 => g.setView .s16 .eax (hi ++ lo)
  | .s16 => (g.setView .s16 .eax lo).setView .s16 .edx hi
  | .s32 => (g.setView .s32 .eax lo).setView .s32 .edx hi

/-- The high half of the dividend: AH, DX or EDX (R285). -/
def dividendHigh (g : Gprs) (z : Size) : BitVec z.bits :=
  match z with
  | .s8 => g.view .s8 .esp
  | .s16 => g.view .s16 .edx
  | .s32 => g.view .s32 .edx

/-- The dividend, high half over AL, AX or EAX (R285). -/
def dividend (g : Gprs) (z : Size) : BitVec (z.bits + z.bits) := dividendHigh g z ++ g.view z .eax

/-- The registers after a division: quotient in AL, AX or EAX, remainder in AH, DX or EDX (R285, R286). -/
def quotientGpr (g : Gprs) (z : Size) (q r : BitVec z.bits) : Gprs :=
  match z with
  | .s8 => (g.setView .s8 .eax q).setView .s8 .esp r
  | .s16 => (g.setView .s16 .eax q).setView .s16 .edx r
  | .s32 => (g.setView .s32 .eax q).setView .s32 .edx r

/-- DIV raises #DE: the divisor is 0, or the quotient needs more than N bits (R285). -/
def divFails (s : State) (z : Size) (src : Ref) : Bool :=
  decide ((s.operand z src).toNat = 0) ||
    decide (2 ^ z.bits ≤ (dividend s.gpr z).toNat / (s.operand z src).toNat)

/-- The quotient of IDIV, truncated toward zero (R286; 00_scope.md R11). -/
def signedQuotient (s : State) (z : Size) (src : Ref) : Int :=
  Int.tdiv (dividend s.gpr z).toInt (s.operand z src).toInt

/-- The remainder of IDIV, with the dividend's sign (R286; 00_scope.md R11). -/
def signedRemainder (s : State) (z : Size) (src : Ref) : Int :=
  Int.tmod (dividend s.gpr z).toInt (s.operand z src).toInt

/-- IDIV raises #DE: the divisor is 0, or the quotient is outside the signed N-bit range (R286). -/
def idivFails (s : State) (z : Size) (src : Ref) : Bool :=
  decide ((s.operand z src).toNat = 0) || decide (signedQuotient s z src < -2 ^ (z.bits - 1)) ||
    decide (2 ^ (z.bits - 1) ≤ signedQuotient s z src)

/-! ### Conditions (46_control.md R334) -/

/-- The table of R334: the even code of each pair, negated for the odd one. -/
def condition (cc : Cond) (f : Flags) : Bool :=
  let base :=
    match cc.bits.toNat / 2 with
    | 0 => f.of
    | 1 => f.cf
    | 2 => f.zf
    | 3 => f.cf || f.zf
    | 4 => f.sf
    | 5 => f.pf
    | 6 => f.sf ^^ f.of
    | _ => f.zf || (f.sf ^^ f.of)
  base ^^ decide (cc.bits.toNat % 2 = 1)

/-! ### Stack and control (45_data_move.md R318; 46_control.md R330, R332) -/

/-- SW = 32 (R318). -/
def wideStack (s : State) : Bool := decide (s.mode = .prot) && s.stackSize32

/-- SPv as an offset (R318). -/
def spOf (s : State) : Word := if wideStack s then s.gpr.esp else (s.gpr.esp.setWidth 16).setWidth 32

/-- SPv - n, modulo 2^SW (R318). -/
def spMinus (s : State) (n : Nat) : Word :=
  if wideStack s then s.gpr.esp - BitVec.ofNat 32 n
  else (s.gpr.esp.setWidth 16 - BitVec.ofNat 16 n).setWidth 32

/-- SPv + n, modulo 2^SW (R318). -/
def spPlus (s : State) (n : Nat) : Word :=
  if wideStack s then s.gpr.esp + BitVec.ofNat 32 n
  else (s.gpr.esp.setWidth 16 + BitVec.ofNat 16 n).setWidth 32

/-- The registers with ESP (SW = 32), or SP alone (SW = 16), at t (R318). -/
def withSp (s : State) (t : Word) : Gprs :=
  if wideStack s then { s.gpr with esp := t }
  else { s.gpr with esp := s.gpr.esp.extractLsb' 16 16 ++ t.setWidth 16 }

/-- nextEIP of an instruction at eip (R330). -/
def nextOf (i : Instr) (s : State) : Word := s.eip + BitVec.ofNat 32 i.len

/-- A target with OS = 16 is truncated to 16 bits (R332). -/
def target (p : Prefixes) (t : Word) : Word :=
  if p.opSize = .w16 then (t.setWidth 16).setWidth 32 else t

/-- The target an r/m operand holds (R332). -/
def pointed (p : Prefixes) (s : State) (r : Ref) : Word := (s.operand p.opSize.size r).setWidth 32

/-- The target on top of the stack (R332). -/
def returned (p : Prefixes) (s : State) : Word := (s.top p.opSize.size).setWidth 32

/-- The state after a value of width N is pushed at the offset the stack pointer goes down to (R318). -/
def pushed (s : State) (z : Size) (v : BitVec z.bits) : State :=
  { s with
    gpr := withSp s (spMinus s z.bytes)
    mem := Memory.writeBytes s.mem (s.lin .ss (spMinus s z.bytes)) (leBytes z.bytes v.toNat) }

/-- Privilege level 0 as HLT checks it (47_flag_misc.md R364). -/
def atLevelZero (s : State) : Bool := decide (s.mode ≠ .v86) && (decide (s.mode ≠ .prot) || decide (s.cpl = 0))

/-! ### What a unit asks of the surrounding machine, in order (40_unit_protocol.md R167) -/

/-- One check of a unit: the oracle for an operand read or written, for the stack, for a target; or the
instruction's own check, which raises a fault when it fails. -/
inductive Check where
  | read (z : Size) (r : Ref)
  | write (z : Size) (r : Ref)
  | pop (z : Size)
  | push (z : Size)
  | branch (t : Word)
  | error (vector : Nat) (code : Option Word) (fails : Bool)

/-- What a check answers. -/
def Check.answer (s : State) : Check → AccessAnswer
  | .read _ (.reg _) => .ok
  | .read z (.mem g ea) => s.access .read g (ea.off s.gpr) z.bytes
  | .write _ (.reg _) => .ok
  | .write z (.mem g ea) => s.access .write g (ea.off s.gpr) z.bytes
  | .pop z => s.access .read .ss (spOf s) z.bytes
  | .push z => s.access .write .ss (spMinus s z.bytes) z.bytes
  | .branch t => s.access .branch .cs t 1
  | .error v c b => if b then .fault v c else .ok

/-- The bytes a check would store to: linear address and length. -/
def Check.store (s : State) : Check → Option (Word × Nat)
  | .read _ _ => none
  | .write _ (.reg _) => none
  | .write z (.mem g ea) => some (s.lin g (ea.off s.gpr), z.bytes)
  | .pop _ => none
  | .push z => some (s.lin .ss (spMinus s z.bytes), z.bytes)
  | .branch _ => none
  | .error _ _ _ => none

/-- An operand read and then written. -/
def update (z : Size) (r : Ref) : List Check := [.read z r, .write z r]

/-- A shift or rotate reads dst always and writes it when the masked count is not 0
(43_shift_rotate.md R250 to R257). -/
def shiftChecks (z : Size) (r : Ref) (c : Nat) : List Check :=
  if c % 32 = 0 then [.read z r] else update z r

/-- RCL and RCR write when the count modulo N + 1 is not 0 (43_shift_rotate.md R253, R254). -/
def carryChecks (s : State) (z : Size) (r : Ref) (c : Nat) : List Check :=
  if carryCount s c % (z.bits + 1) = 0 then [.read z r] else update z r

/-- The checks of every instruction, in the order of its own rule. -/
def checks (i : Instr) (s : State) : List Check :=
  match i with
  | .addRm8R8 p _ rm | .orRm8R8 p _ rm | .adcRm8R8 p _ rm | .sbbRm8R8 p _ rm | .andRm8R8 p _ rm
  | .subRm8R8 p _ rm | .xorRm8R8 p _ rm => update .s8 (rmRef p rm)
  | .addRmvRv p _ rm | .orRmvRv p _ rm | .adcRmvRv p _ rm | .sbbRmvRv p _ rm | .andRmvRv p _ rm
  | .subRmvRv p _ rm | .xorRmvRv p _ rm => update p.opSize.size (rmRef p rm)
  | .cmpRm8R8 p _ rm | .testRm8R8 p _ rm => [.read .s8 (rmRef p rm)]
  | .cmpRmvRv p _ rm | .testRmvRv p _ rm => [.read p.opSize.size (rmRef p rm)]
  | .addR8Rm8 p _ rm | .orR8Rm8 p _ rm | .adcR8Rm8 p _ rm | .sbbR8Rm8 p _ rm | .andR8Rm8 p _ rm
  | .subR8Rm8 p _ rm | .xorR8Rm8 p _ rm | .cmpR8Rm8 p _ rm | .movR8Rm8 p _ rm => [.read .s8 (rmRef p rm)]
  | .addRvRmv p _ rm | .orRvRmv p _ rm | .adcRvRmv p _ rm | .sbbRvRmv p _ rm | .andRvRmv p _ rm
  | .subRvRmv p _ rm | .xorRvRmv p _ rm | .cmpRvRmv p _ rm | .movRvRmv p _ rm | .imulRvRmv p _ rm =>
    [.read p.opSize.size (rmRef p rm)]
  | .addAlImm8 _ _ | .orAlImm8 _ _ | .adcAlImm8 _ _ | .sbbAlImm8 _ _ | .andAlImm8 _ _ | .subAlImm8 _ _
  | .xorAlImm8 _ _ | .cmpAlImm8 _ _ | .testAlImm8 _ _ => []
  | .addEaxImmz _ _ | .orEaxImmz _ _ | .adcEaxImmz _ _ | .sbbEaxImmz _ _ | .andEaxImmz _ _
  | .subEaxImmz _ _ | .xorEaxImmz _ _ | .cmpEaxImmz _ _ | .testEaxImmz _ _ => []
  | .addRm8Imm8 p _ rm _ | .orRm8Imm8 p _ rm _ | .adcRm8Imm8 p _ rm _ | .sbbRm8Imm8 p _ rm _
  | .andRm8Imm8 p _ rm _ | .subRm8Imm8 p _ rm _ | .xorRm8Imm8 p _ rm _ => update .s8 (rmRef p rm)
  | .cmpRm8Imm8 p _ rm _ => [.read .s8 (rmRef p rm)]
  | .testRm8Imm8 p rm _ => [.read .s8 (rmRef p rm)]
  | .addRmvImmz p rm _ | .addRmvImm8 p rm _ | .orRmvImmz p rm _ | .orRmvImm8 p rm _ | .adcRmvImmz p rm _
  | .adcRmvImm8 p rm _ | .sbbRmvImmz p rm _ | .sbbRmvImm8 p rm _ | .andRmvImmz p rm _ | .andRmvImm8 p rm _
  | .subRmvImmz p rm _ | .subRmvImm8 p rm _ | .xorRmvImmz p rm _ | .xorRmvImm8 p rm _ =>
    update p.opSize.size (rmRef p rm)
  | .cmpRmvImmz p rm _ | .cmpRmvImm8 p rm _ | .testRmvImmz p rm _ => [.read p.opSize.size (rmRef p rm)]
  | .incRv _ _ | .decRv _ _ => []
  | .incRm8 p rm | .decRm8 p rm | .notRm8 p rm | .negRm8 p rm => update .s8 (rmRef p rm)
  | .incRmv p rm | .decRmv p rm | .notRmv p rm | .negRmv p rm => update p.opSize.size (rmRef p rm)
  | .rolRm8Imm8 p rm v | .rorRm8Imm8 p rm v | .shlRm8Imm8 p rm v | .shrRm8Imm8 p rm v | .sarRm8Imm8 p rm v =>
    shiftChecks .s8 (rmRef p rm) v.toNat
  | .rolRmvImm8 p rm v | .rorRmvImm8 p rm v | .shlRmvImm8 p rm v | .shrRmvImm8 p rm v | .sarRmvImm8 p rm v =>
    shiftChecks p.opSize.size (rmRef p rm) v.toNat
  | .rolRm8One p rm | .rorRm8One p rm | .shlRm8One p rm | .shrRm8One p rm | .sarRm8One p rm =>
    shiftChecks .s8 (rmRef p rm) 1
  | .rolRmvOne p rm | .rorRmvOne p rm | .shlRmvOne p rm | .shrRmvOne p rm | .sarRmvOne p rm =>
    shiftChecks p.opSize.size (rmRef p rm) 1
  | .rolRm8Cl p rm | .rorRm8Cl p rm | .shlRm8Cl p rm | .shrRm8Cl p rm | .sarRm8Cl p rm =>
    shiftChecks .s8 (rmRef p rm) (clOf s)
  | .rolRmvCl p rm | .rorRmvCl p rm | .shlRmvCl p rm | .shrRmvCl p rm | .sarRmvCl p rm =>
    shiftChecks p.opSize.size (rmRef p rm) (clOf s)
  | .rclRm8Imm8 p rm v | .rcrRm8Imm8 p rm v => carryChecks s .s8 (rmRef p rm) v.toNat
  | .rclRmvImm8 p rm v | .rcrRmvImm8 p rm v => carryChecks s p.opSize.size (rmRef p rm) v.toNat
  | .rclRm8One p rm | .rcrRm8One p rm => carryChecks s .s8 (rmRef p rm) 1
  | .rclRmvOne p rm | .rcrRmvOne p rm => carryChecks s p.opSize.size (rmRef p rm) 1
  | .rclRm8Cl p rm | .rcrRm8Cl p rm => carryChecks s .s8 (rmRef p rm) (clOf s)
  | .rclRmvCl p rm | .rcrRmvCl p rm => carryChecks s p.opSize.size (rmRef p rm) (clOf s)
  | .mulRm8 p rm | .imulRm8 p rm => [.read .s8 (rmRef p rm)]
  | .mulRmv p rm | .imulRmv p rm => [.read p.opSize.size (rmRef p rm)]
  | .imulRvRmvImmz p _ rm _ | .imulRvRmvImm8 p _ rm _ => [.read p.opSize.size (rmRef p rm)]
  | .divRm8 p rm => [.read .s8 (rmRef p rm), .error 0 none (divFails s .s8 (rmRef p rm))]
  | .divRmv p rm => [.read p.opSize.size (rmRef p rm), .error 0 none (divFails s p.opSize.size (rmRef p rm))]
  | .idivRm8 p rm => [.read .s8 (rmRef p rm), .error 0 none (idivFails s .s8 (rmRef p rm))]
  | .idivRmv p rm => [.read p.opSize.size (rmRef p rm), .error 0 none (idivFails s p.opSize.size (rmRef p rm))]
  | .cbwCwde _ | .cwdCdq _ | .nop _ | .cmc _ | .clc _ | .stc _ | .ud2 _ | .xchgEaxEcx _ | .xchgEaxEdx _
  | .xchgEaxEbx _ | .xchgEaxEsp _ | .xchgEaxEbp _ | .xchgEaxEsi _ | .xchgEaxEdi _ => []
  | .movRm8R8 p _ rm => [.write .s8 (rmRef p rm)]
  | .movRmvRv p _ rm => [.write p.opSize.size (rmRef p rm)]
  | .movAlMoffs8 p off => [.read .s8 (moffsRef p off)]
  | .movEaxMoffsv p off => [.read p.opSize.size (moffsRef p off)]
  | .movMoffs8Al p off => [.write .s8 (moffsRef p off)]
  | .movMoffsvEax p off => [.write p.opSize.size (moffsRef p off)]
  | .movR8Imm8 _ _ _ | .movRvImmz _ _ _ | .leaRvM _ _ _ => []
  | .movRm8Imm8 p rm _ => [.write .s8 (rmRef p rm)]
  | .movRmvImmz p rm _ => [.write p.opSize.size (rmRef p rm)]
  | .setccRm8 p _ _ rm => [.write .s8 (rmRef p rm)]
  | .movzxRvRm8 p _ rm | .movsxRvRm8 p _ rm => [.read .s8 (rmRef p rm)]
  | .movzxRvRm16 p _ rm | .movsxRvRm16 p _ rm => [.read .s16 (rmRef p rm)]
  | .xchgRm8R8 p _ rm => update .s8 (rmRef p rm)
  | .xchgRmvRv p _ rm => update p.opSize.size (rmRef p rm)
  | .pushRv p _ | .pushImmz p _ | .pushImm8 p _ => [.push p.opSize.size]
  | .pushRmv p rm => [.read p.opSize.size (rmRef p rm), .push p.opSize.size]
  | .popRv p _ => [.pop p.opSize.size]
  | .jccRel8 p cc rel =>
    if condition cc s.flags then [.branch (target p (nextOf i s + rel.signExtend 32))] else []
  | .jccRelz p cc rel => if condition cc s.flags then [.branch (target p (nextOf i s + Immz.sext rel))] else []
  | .jmpRel8 p rel => [.branch (target p (nextOf i s + rel.signExtend 32))]
  | .jmpRelz p rel => [.branch (target p (nextOf i s + Immz.sext rel))]
  | .jmpRmv p rm => [.read p.opSize.size (rmRef p rm), .branch (pointed p s (rmRef p rm))]
  | .callRelz p rel => [.branch (target p (nextOf i s + Immz.sext rel)), .push p.opSize.size]
  | .callRmv p rm => [.read p.opSize.size (rmRef p rm), .branch (pointed p s (rmRef p rm)), .push p.opSize.size]
  | .ret p => [.pop p.opSize.size, .branch (returned p s)]
  | .retImm16 p _ => [.pop p.opSize.size, .branch (returned p s)]
  | .hlt _ => [.error 13 (some 0) (!atLevelZero s)]

/-- The first check that does not answer Ok, by its answer. -/
def firstFailure (s : State) : List Check → AccessAnswer
  | [] => .ok
  | c :: l =>
    match c.answer s with
    | .ok => firstFailure s l
    | .fault v k => .fault v k
    | .unmodelled => .unmodelled

/-- The bytes an instruction stores to, if it stores. -/
def stored (i : Instr) (s : State) : Option (Word × Nat) := (checks i s).findSome? (Check.store s)

/-- The store meets the running block (70_reset_and_hazards.md R460). -/
def storeHits (i : Instr) (s : State) : Bool :=
  match stored i s with
  | none => false
  | some x => s.hitsBlock x.1 x.2

/-! ### What a unit may change -/

/-- The register a view lies in (10_state.md R31 to R33). -/
def regHome (z : Size) (r : Reg) : Reg :=
  match z with
  | .s8 => Reg.ofIndex (BitVec.ofNat 3 (r.index.toNat % 4))
  | .s16 => r
  | .s32 => r

/-- The register an r/m operand lies in, if it is one. -/
def rmHome (z : Size) : Rm → List Reg
  | .reg r => [regHome z r]
  | .mem _ => []

/-- The general registers an instruction may write (its rule of 41 to 47). -/
def written : Instr → List Reg
  | .addRm8R8 _ _ rm | .orRm8R8 _ _ rm | .adcRm8R8 _ _ rm | .sbbRm8R8 _ _ rm | .andRm8R8 _ _ rm
  | .subRm8R8 _ _ rm | .xorRm8R8 _ _ rm | .movRm8R8 _ _ rm => rmHome .s8 rm
  | .addRmvRv p _ rm | .orRmvRv p _ rm | .adcRmvRv p _ rm | .sbbRmvRv p _ rm | .andRmvRv p _ rm
  | .subRmvRv p _ rm | .xorRmvRv p _ rm | .movRmvRv p _ rm => rmHome p.opSize.size rm
  | .addR8Rm8 _ reg _ | .orR8Rm8 _ reg _ | .adcR8Rm8 _ reg _ | .sbbR8Rm8 _ reg _ | .andR8Rm8 _ reg _
  | .subR8Rm8 _ reg _ | .xorR8Rm8 _ reg _ | .movR8Rm8 _ reg _ => [regHome .s8 reg]
  | .addRvRmv _ reg _ | .orRvRmv _ reg _ | .adcRvRmv _ reg _ | .sbbRvRmv _ reg _ | .andRvRmv _ reg _
  | .subRvRmv _ reg _ | .xorRvRmv _ reg _ | .movRvRmv _ reg _ | .imulRvRmv _ reg _ | .movzxRvRm8 _ reg _
  | .movzxRvRm16 _ reg _ | .movsxRvRm8 _ reg _ | .movsxRvRm16 _ reg _ => [reg]
  | .leaRvM _ reg _ => [reg]
  | .addAlImm8 _ _ | .orAlImm8 _ _ | .adcAlImm8 _ _ | .sbbAlImm8 _ _ | .andAlImm8 _ _ | .subAlImm8 _ _
  | .xorAlImm8 _ _ | .addEaxImmz _ _ | .orEaxImmz _ _ | .adcEaxImmz _ _ | .sbbEaxImmz _ _ | .andEaxImmz _ _
  | .subEaxImmz _ _ | .xorEaxImmz _ _ | .movAlMoffs8 _ _ | .movEaxMoffsv _ _ => [.eax]
  | .addRm8Imm8 _ _ rm _ | .orRm8Imm8 _ _ rm _ | .adcRm8Imm8 _ _ rm _ | .sbbRm8Imm8 _ _ rm _
  | .andRm8Imm8 _ _ rm _ | .subRm8Imm8 _ _ rm _ | .xorRm8Imm8 _ _ rm _ => rmHome .s8 rm
  | .addRmvImmz p rm _ | .addRmvImm8 p rm _ | .orRmvImmz p rm _ | .orRmvImm8 p rm _ | .adcRmvImmz p rm _
  | .adcRmvImm8 p rm _ | .sbbRmvImmz p rm _ | .sbbRmvImm8 p rm _ | .andRmvImmz p rm _ | .andRmvImm8 p rm _
  | .subRmvImmz p rm _ | .subRmvImm8 p rm _ | .xorRmvImmz p rm _ | .xorRmvImm8 p rm _ | .movRmvImmz p rm _ =>
    rmHome p.opSize.size rm
  | .movRm8Imm8 _ rm _ | .rolRm8Imm8 _ rm _ | .rorRm8Imm8 _ rm _ | .rclRm8Imm8 _ rm _ | .rcrRm8Imm8 _ rm _
  | .shlRm8Imm8 _ rm _ | .shrRm8Imm8 _ rm _ | .sarRm8Imm8 _ rm _ => rmHome .s8 rm
  | .rolRmvImm8 p rm _ | .rorRmvImm8 p rm _ | .rclRmvImm8 p rm _ | .rcrRmvImm8 p rm _ | .shlRmvImm8 p rm _
  | .shrRmvImm8 p rm _ | .sarRmvImm8 p rm _ => rmHome p.opSize.size rm
  | .rolRm8One _ rm | .rolRm8Cl _ rm | .rorRm8One _ rm | .rorRm8Cl _ rm | .rclRm8One _ rm | .rclRm8Cl _ rm
  | .rcrRm8One _ rm | .rcrRm8Cl _ rm | .shlRm8One _ rm | .shlRm8Cl _ rm | .shrRm8One _ rm | .shrRm8Cl _ rm
  | .sarRm8One _ rm | .sarRm8Cl _ rm | .incRm8 _ rm | .decRm8 _ rm | .notRm8 _ rm | .negRm8 _ rm =>
    rmHome .s8 rm
  | .rolRmvOne p rm | .rolRmvCl p rm | .rorRmvOne p rm | .rorRmvCl p rm | .rclRmvOne p rm | .rclRmvCl p rm
  | .rcrRmvOne p rm | .rcrRmvCl p rm | .shlRmvOne p rm | .shlRmvCl p rm | .shrRmvOne p rm | .shrRmvCl p rm
  | .sarRmvOne p rm | .sarRmvCl p rm | .incRmv p rm | .decRmv p rm | .notRmv p rm | .negRmv p rm =>
    rmHome p.opSize.size rm
  | .setccRm8 _ _ _ rm => rmHome .s8 rm
  | .incRv _ r | .decRv _ r => [r]
  | .movR8Imm8 _ r _ => [regHome .s8 r]
  | .movRvImmz _ r _ => [r]
  | .imulRvRmvImmz _ reg _ _ | .imulRvRmvImm8 _ reg _ _ => [reg]
  | .mulRm8 _ _ | .imulRm8 _ _ | .divRm8 _ _ | .idivRm8 _ _ => [.eax]
  | .mulRmv _ _ | .imulRmv _ _ | .divRmv _ _ | .idivRmv _ _ => [.eax, .edx]
  | .cbwCwde _ => [.eax]
  | .cwdCdq _ => [.edx]
  | .xchgRm8R8 _ reg rm => regHome .s8 reg :: rmHome .s8 rm
  | .xchgRmvRv p reg rm => reg :: rmHome p.opSize.size rm
  | .xchgEaxEcx _ => [.eax, .ecx]
  | .xchgEaxEdx _ => [.eax, .edx]
  | .xchgEaxEbx _ => [.eax, .ebx]
  | .xchgEaxEsp _ => [.eax, .esp]
  | .xchgEaxEbp _ => [.eax, .ebp]
  | .xchgEaxEsi _ => [.eax, .esi]
  | .xchgEaxEdi _ => [.eax, .edi]
  | .pushRv _ _ | .pushImmz _ _ | .pushImm8 _ _ | .pushRmv _ _ | .callRelz _ _ | .callRmv _ _
  | .retImm16 _ _ => [.esp]
  | .ret _ => [.esp]
  | .popRv _ r => [.esp, r]
  | .cmpRm8R8 _ _ _ | .cmpRmvRv _ _ _ | .cmpR8Rm8 _ _ _ | .cmpRvRmv _ _ _ | .testRm8R8 _ _ _
  | .testRmvRv _ _ _ | .jccRel8 _ _ _ | .jccRelz _ _ _ | .cmpRmvImmz _ _ _ | .cmpRmvImm8 _ _ _
  | .testRm8Imm8 _ _ _ | .testRmvImmz _ _ _ => []
  | .cmpAlImm8 _ _ | .cmpEaxImmz _ _ | .testAlImm8 _ _ | .testEaxImmz _ _ | .movMoffs8Al _ _
  | .movMoffsvEax _ _ | .jmpRel8 _ _ | .jmpRelz _ _ | .jmpRmv _ _ => []
  | .cmpRm8Imm8 _ _ _ _ => []
  | .nop _ | .hlt _ | .cmc _ | .clc _ | .stc _ | .ud2 _ => []

/-- The names of the six flags. -/
inductive FlagName where
  | cf | pf | af | zf | sf | of
  deriving DecidableEq, Repr

/-- The flag of a name. -/
def flagOf (f : Flags) : FlagName → Bool
  | .cf => f.cf
  | .pf => f.pf
  | .af => f.af
  | .zf => f.zf
  | .sf => f.sf
  | .of => f.of

/-- The flags an instruction's rule lists as written, draws among them. -/
def flagsWritten : Instr → List FlagName
  | .addRm8R8 .. | .addRmvRv .. | .addR8Rm8 .. | .addRvRmv .. | .addAlImm8 .. | .addEaxImmz ..
  | .addRm8Imm8 .. | .addRmvImmz .. | .addRmvImm8 .. | .adcRm8R8 .. | .adcRmvRv .. | .adcR8Rm8 ..
  | .adcRvRmv .. | .adcAlImm8 .. | .adcEaxImmz .. | .adcRm8Imm8 .. | .adcRmvImmz .. | .adcRmvImm8 ..
  | .subRm8R8 .. | .subRmvRv .. | .subR8Rm8 .. | .subRvRmv .. | .subAlImm8 .. | .subEaxImmz ..
  | .subRm8Imm8 .. | .subRmvImmz .. | .subRmvImm8 .. | .sbbRm8R8 .. | .sbbRmvRv .. | .sbbR8Rm8 ..
  | .sbbRvRmv .. | .sbbAlImm8 .. | .sbbEaxImmz .. | .sbbRm8Imm8 .. | .sbbRmvImmz .. | .sbbRmvImm8 ..
  | .cmpRm8R8 .. | .cmpRmvRv .. | .cmpR8Rm8 .. | .cmpRvRmv .. | .cmpAlImm8 .. | .cmpEaxImmz ..
  | .cmpRm8Imm8 .. | .cmpRmvImmz .. | .cmpRmvImm8 .. | .negRm8 .. | .negRmv .. | .mulRm8 .. | .mulRmv ..
  | .imulRm8 .. | .imulRmv .. | .imulRvRmv .. | .imulRvRmvImmz .. | .imulRvRmvImm8 .. =>
    [.cf, .pf, .af, .zf, .sf, .of]
  | .incRv .. | .decRv .. | .incRm8 .. | .incRmv .. | .decRm8 .. | .decRmv .. => [.pf, .af, .zf, .sf, .of]
  | .andRm8R8 .. | .andRmvRv .. | .andR8Rm8 .. | .andRvRmv .. | .andAlImm8 .. | .andEaxImmz ..
  | .andRm8Imm8 .. | .andRmvImmz .. | .andRmvImm8 .. | .orRm8R8 .. | .orRmvRv .. | .orR8Rm8 ..
  | .orRvRmv .. | .orAlImm8 .. | .orEaxImmz .. | .orRm8Imm8 .. | .orRmvImmz .. | .orRmvImm8 ..
  | .xorRm8R8 .. | .xorRmvRv .. | .xorR8Rm8 .. | .xorRvRmv .. | .xorAlImm8 .. | .xorEaxImmz ..
  | .xorRm8Imm8 .. | .xorRmvImmz .. | .xorRmvImm8 .. | .testRm8R8 .. | .testRmvRv .. | .testAlImm8 ..
  | .testEaxImmz .. | .testRm8Imm8 .. | .testRmvImmz .. => [.cf, .pf, .zf, .sf, .of]
  | .shlRm8Imm8 .. | .shlRmvImm8 .. | .shlRm8One .. | .shlRmvOne .. | .shlRm8Cl .. | .shlRmvCl ..
  | .shrRm8Imm8 .. | .shrRmvImm8 .. | .shrRm8One .. | .shrRmvOne .. | .shrRm8Cl .. | .shrRmvCl ..
  | .sarRm8Imm8 .. | .sarRmvImm8 .. | .sarRm8One .. | .sarRmvOne .. | .sarRm8Cl .. | .sarRmvCl .. =>
    [.cf, .pf, .zf, .sf, .of]
  | .rolRm8Imm8 .. | .rolRmvImm8 .. | .rolRm8One .. | .rolRmvOne .. | .rolRm8Cl .. | .rolRmvCl ..
  | .rorRm8Imm8 .. | .rorRmvImm8 .. | .rorRm8One .. | .rorRmvOne .. | .rorRm8Cl .. | .rorRmvCl ..
  | .rclRm8Imm8 .. | .rclRmvImm8 .. | .rclRm8One .. | .rclRmvOne .. | .rclRm8Cl .. | .rclRmvCl ..
  | .rcrRm8Imm8 .. | .rcrRmvImm8 .. | .rcrRm8One .. | .rcrRmvOne .. | .rcrRm8Cl .. | .rcrRmvCl .. => [.cf, .of]
  | .cmc .. | .clc .. | .stc .. => [.cf]
  | .pushRv .. | .popRv .. | .pushImmz .. | .pushImm8 .. | .jccRel8 .. | .xchgRm8R8 .. | .xchgRmvRv ..
  | .movRm8R8 .. | .movRmvRv .. | .movR8Rm8 .. | .movRvRmv .. | .leaRvM .. | .nop .. | .xchgEaxEcx ..
  | .xchgEaxEdx .. | .xchgEaxEbx .. | .xchgEaxEsp .. | .xchgEaxEbp .. | .xchgEaxEsi .. | .xchgEaxEdi ..
  | .cbwCwde .. | .cwdCdq .. | .movAlMoffs8 .. | .movEaxMoffsv .. | .movMoffs8Al .. | .movMoffsvEax ..
  | .movR8Imm8 .. | .movRvImmz .. | .retImm16 .. | .ret .. | .movRm8Imm8 .. | .movRmvImmz .. | .callRelz ..
  | .jmpRelz .. | .jmpRel8 .. | .hlt .. | .notRm8 .. | .notRmv .. | .divRm8 .. | .divRmv .. | .idivRm8 ..
  | .idivRmv .. | .callRmv .. | .jmpRmv .. | .pushRmv .. | .ud2 .. | .jccRelz .. | .setccRm8 ..
  | .movzxRvRm8 .. | .movzxRvRm16 .. | .movsxRvRm8 .. | .movsxRvRm16 .. => []

/-- The flags of a condition (46_control.md R334). -/
def conditionFlags (cc : Cond) : List FlagName :=
  match cc.bits.toNat / 2 with
  | 0 => [.of]
  | 1 => [.cf]
  | 2 => [.zf]
  | 3 => [.cf, .zf]
  | 4 => [.sf]
  | 5 => [.pf]
  | 6 => [.sf, .of]
  | _ => [.zf, .sf, .of]

/-- The flags an instruction reads (10_state.md R44). -/
def flagsRead : Instr → List FlagName
  | .adcRm8R8 .. | .adcRmvRv .. | .adcR8Rm8 .. | .adcRvRmv .. | .adcAlImm8 .. | .adcEaxImmz ..
  | .adcRm8Imm8 .. | .adcRmvImmz .. | .adcRmvImm8 .. | .sbbRm8R8 .. | .sbbRmvRv .. | .sbbR8Rm8 ..
  | .sbbRvRmv .. | .sbbAlImm8 .. | .sbbEaxImmz .. | .sbbRm8Imm8 .. | .sbbRmvImmz .. | .sbbRmvImm8 ..
  | .rclRm8Imm8 .. | .rclRmvImm8 .. | .rclRm8One .. | .rclRmvOne .. | .rclRm8Cl .. | .rclRmvCl ..
  | .rcrRm8Imm8 .. | .rcrRmvImm8 .. | .rcrRm8One .. | .rcrRmvOne .. | .rcrRm8Cl .. | .rcrRmvCl .. | .cmc .. =>
    [.cf]
  | .jccRel8 _ cc _ => conditionFlags cc
  | .jccRelz _ cc _ => conditionFlags cc
  | .setccRm8 _ cc _ _ => conditionFlags cc
  | .addRm8R8 .. | .addRmvRv .. | .addR8Rm8 .. | .addRvRmv .. | .addAlImm8 .. | .addEaxImmz ..
  | .orRm8R8 .. | .orRmvRv .. | .orR8Rm8 .. | .orRvRmv .. | .orAlImm8 .. | .orEaxImmz .. | .andRm8R8 ..
  | .andRmvRv .. | .andR8Rm8 .. | .andRvRmv .. | .andAlImm8 .. | .andEaxImmz .. | .subRm8R8 ..
  | .subRmvRv .. | .subR8Rm8 .. | .subRvRmv .. | .subAlImm8 .. | .subEaxImmz .. | .xorRm8R8 ..
  | .xorRmvRv .. | .xorR8Rm8 .. | .xorRvRmv .. | .xorAlImm8 .. | .xorEaxImmz .. | .cmpRm8R8 ..
  | .cmpRmvRv .. | .cmpR8Rm8 .. | .cmpRvRmv .. | .cmpAlImm8 .. | .cmpEaxImmz .. | .addRm8Imm8 ..
  | .addRmvImmz .. | .addRmvImm8 .. | .orRm8Imm8 .. | .orRmvImmz .. | .orRmvImm8 .. | .andRm8Imm8 ..
  | .andRmvImmz .. | .andRmvImm8 .. | .subRm8Imm8 .. | .subRmvImmz .. | .subRmvImm8 .. | .xorRm8Imm8 ..
  | .xorRmvImmz .. | .xorRmvImm8 .. | .cmpRm8Imm8 .. | .cmpRmvImmz .. | .cmpRmvImm8 .. | .incRv ..
  | .decRv .. | .pushRv .. | .popRv .. | .pushImmz .. | .imulRvRmvImmz .. | .pushImm8 ..
  | .imulRvRmvImm8 .. | .testRm8R8 .. | .testRmvRv .. | .xchgRm8R8 .. | .xchgRmvRv .. | .movRm8R8 ..
  | .movRmvRv .. | .movR8Rm8 .. | .movRvRmv .. | .leaRvM .. | .nop .. | .xchgEaxEcx .. | .xchgEaxEdx ..
  | .xchgEaxEbx .. | .xchgEaxEsp .. | .xchgEaxEbp .. | .xchgEaxEsi .. | .xchgEaxEdi .. | .cbwCwde ..
  | .cwdCdq .. | .movAlMoffs8 .. | .movEaxMoffsv .. | .movMoffs8Al .. | .movMoffsvEax .. | .testAlImm8 ..
  | .testEaxImmz .. | .movR8Imm8 .. | .movRvImmz .. | .rolRm8Imm8 .. | .rolRmvImm8 .. | .rolRm8One ..
  | .rolRmvOne .. | .rolRm8Cl .. | .rolRmvCl .. | .rorRm8Imm8 .. | .rorRmvImm8 .. | .rorRm8One ..
  | .rorRmvOne .. | .rorRm8Cl .. | .rorRmvCl .. | .shlRm8Imm8 .. | .shlRmvImm8 .. | .shlRm8One ..
  | .shlRmvOne .. | .shlRm8Cl .. | .shlRmvCl .. | .shrRm8Imm8 .. | .shrRmvImm8 .. | .shrRm8One ..
  | .shrRmvOne .. | .shrRm8Cl .. | .shrRmvCl .. | .sarRm8Imm8 .. | .sarRmvImm8 .. | .sarRm8One ..
  | .sarRmvOne .. | .sarRm8Cl .. | .sarRmvCl .. | .retImm16 .. | .ret .. | .movRm8Imm8 .. | .movRmvImmz ..
  | .callRelz .. | .jmpRelz .. | .jmpRel8 .. | .hlt .. | .testRm8Imm8 .. | .testRmvImmz .. | .notRm8 ..
  | .notRmv .. | .negRm8 .. | .negRmv .. | .mulRm8 .. | .mulRmv .. | .imulRm8 .. | .imulRmv .. | .divRm8 ..
  | .divRmv .. | .idivRm8 .. | .idivRmv .. | .clc .. | .stc .. | .incRm8 .. | .decRm8 .. | .incRmv ..
  | .decRmv .. | .callRmv .. | .jmpRmv .. | .pushRmv .. | .ud2 .. | .imulRvRmv .. | .movzxRvRm8 ..
  | .movzxRvRm16 .. | .movsxRvRm8 .. | .movsxRvRm16 .. => []

/-- An instruction that uses the stack (45_data_move.md R318). -/
def usesStack : Instr → Bool
  | .pushRv .. | .pushImmz .. | .pushImm8 .. | .pushRmv .. | .popRv .. | .callRelz .. | .callRmv .. | .ret ..
  | .retImm16 .. => true
  | _ => false

/-- The control-transfer units of 40_unit_protocol.md R177. -/
def isTransfer : Instr → Bool
  | .jccRel8 .. | .jccRelz .. | .jmpRel8 .. | .jmpRelz .. | .jmpRmv .. | .callRelz .. | .callRmv .. | .ret ..
  | .retImm16 .. | .hlt .. => true
  | _ => false

/-- HLT. -/
def isHlt : Instr → Bool
  | .hlt .. => true
  | _ => false

/-- An outcome with its next state changed. -/
def mapNext (f : State → State) : Out → Out
  | .next t => .next (f t)
  | .fault r => .fault r
  | .refused r => .refused r

/-! ### The encoding tables -/

/-- The admitted one-byte opcodes (30_encoding.md R134). -/
def admittedOne (b : Byte) : Bool :=
  let n := b.toNat
  decide ((n < 0x40 ∧ n % 8 < 6) ∨ (0x40 ≤ n ∧ n < 0x60) ∨ (0x68 ≤ n ∧ n < 0x6C) ∨ (0x70 ≤ n ∧ n < 0x8C) ∨
    n = 0x8D ∨ (0x90 ≤ n ∧ n < 0x9A) ∨ (0xA0 ≤ n ∧ n < 0xA4) ∨ n = 0xA8 ∨ n = 0xA9 ∨ (0xB0 ≤ n ∧ n < 0xC4) ∨
    n = 0xC6 ∨ n = 0xC7 ∨ (0xD0 ≤ n ∧ n < 0xD4) ∨ n = 0xE8 ∨ n = 0xE9 ∨ n = 0xEB ∨ (0xF4 ≤ n ∧ n < 0xFA) ∨
    n = 0xFE ∨ n = 0xFF)

/-- The second opcode bytes of the two-byte map, UD2 among them (30_encoding.md R139). -/
def admittedTwo (b : Byte) : Bool :=
  let n := b.toNat
  decide (n = 0x0B ∨ (0x80 ≤ n ∧ n < 0xA0) ∨ n = 0xAF ∨ n = 0xB6 ∨ n = 0xB7 ∨ n = 0xBE ∨ n = 0xBF)

/-- A group extension that is refused (30_encoding.md R136 to R138). -/
def refusedGroup (op modrm : Byte) : Bool :=
  let n := op.toNat
  let reg := modrm.toNat / 8 % 8
  decide (((n = 0xC0 ∨ n = 0xC1 ∨ (0xD0 ≤ n ∧ n < 0xD4)) ∧ reg = 6) ∨ ((n = 0xF6 ∨ n = 0xF7) ∧ reg = 1) ∨
    (n = 0xFF ∧ (reg = 3 ∨ reg = 5)))

/-- A reserved encoding, by its first two bytes after the prefixes (30_encoding.md R142). -/
def reservedPair (op next : Byte) : Bool :=
  let n := op.toNat
  let reg := next.toNat / 8 % 8
  decide ((n = 0x0F ∧ next.toNat = 0x0B) ∨ (n = 0xFE ∧ 2 ≤ reg) ∨ (n = 0xFF ∧ reg = 7) ∨
    ((n = 0xC6 ∨ n = 0xC7) ∧ reg ≠ 0) ∨ (n = 0x8D ∧ next.toNat / 64 = 3))

/-- The result of a block whose last unit left this tag: `end(o)`, and a trap's own (40_unit_protocol.md R180). -/
def endOf : Tag → BlockEnd
  | .noBranch => .fallthrough
  | .jump t => .jump t
  | .cond taken t => .cond taken t
  | .trap v c => .trap v c
  | .halt => .halt

/-- The block ended at a faulting unit. -/
def isTrap : BlockEnd → Bool
  | .trap _ _ => true
  | .fallthrough | .jump _ | .cond _ _ | .halt | .decodeFault _ => false

/-- The bytes of prefixes. -/
def prefixBytes (l : List Prefix) : List Byte := l.map Prefix.byte

/-- The parts of an encoding are well-formed, its length apart. -/
def partsWf (l : Layout) : Bool :=
  l.pfx.wf && (l.modrm.all fun x => x.2.wf l.pfx.addrSize) && l.imm.wf l.pfx

/-- The base register of rm under 16-bit addressing (30_encoding.md R114). -/
def base16 (rm : BitVec 3) : Reg :=
  match rm.toNat with
  | 0 => .ebx
  | 1 => .ebx
  | 2 => .ebp
  | 3 => .ebp
  | 4 => .esi
  | 5 => .edi
  | 6 => .ebp
  | _ => .ebx

/-- The index register of rm under 16-bit addressing (30_encoding.md R114). -/
def index16 (rm : BitVec 3) : Option (Reg × Scale) :=
  match rm.toNat with
  | 0 => some (.esi, .x1)
  | 1 => some (.edi, .x1)
  | 2 => some (.esi, .x1)
  | 3 => some (.edi, .x1)
  | _ => none

/-- The 16-bit displacement after a ModRM byte: the cells before and after it, and its value
(30_encoding.md R116). -/
def reads16 (size : Nat) (c c' : List Cell) (v : Word) : Prop :=
  match size with
  | 0 => c = c' ∧ v = 0
  | 1 => ∃ d, c = .byte d :: c' ∧ v = (d.signExtend 16).setWidth 32
  | _ => ∃ lo hi, c = .byte lo :: .byte hi :: c' ∧ v = (hi ++ lo).setWidth 32

/-- The 32-bit displacement after a ModRM or SIB byte (30_encoding.md R121). -/
def reads32 (size : Nat) (c c' : List Cell) (v : Word) : Prop :=
  match size with
  | 0 => c = c' ∧ v = 0
  | 1 => ∃ d, c = .byte d :: c' ∧ v = d.signExtend 32
  | _ => ∃ b0 b1 b2 b3, c = .byte b0 :: .byte b1 :: .byte b2 :: .byte b3 :: c' ∧ v = b3 ++ b2 ++ b1 ++ b0

/-- The fields of a snapshot are in their ranges (40_unit_protocol.md R187; 10_state.md R48). -/
def inRange (a : List Word) : Prop :=
  a.length = 26 ∧ (∀ k, 10 ≤ k → k ≤ 15 → (a.getD k 0).toNat ≤ 0xFFFF) ∧ (a.getD 22 0).toNat ≤ 2 ∧
    (a.getD 23 0).toNat ≤ 1 ∧ (a.getD 24 0).toNat ≤ 1 ∧ (a.getD 25 0).toNat ≤ 3 ∧
    ((a.getD 22 0).toNat = 0 → (a.getD 25 0).toNat = 0) ∧ ((a.getD 22 0).toNat = 2 → (a.getD 25 0).toNat = 3)

end Sys2Proof.Claims

open Sys2Proof Sys2Proof.Machine Sys2Proof.Claims

/-! ### Encoding and decoding -/

/-- Words of the spec's own examples, byte by byte, decode to the rows they stand for: ADD (R201), RCR (R254), IMUL
(R284), LEA with SIB (R304), MOV r/m, imm (R302), MOV moffs (R303), PUSH (R319), JE relz (R336), CALL (R339), RET imm16
(R341), CLC (R360), SETE (R323). -/
def Obligations.SpecWordsDecode : Prop :=
  decode .w32 [0x01, 0xD8] = .ok (.addRmvRv ⟨.w32, []⟩ .ebx (.reg .eax)) ∧
  decode .w32 [0x66, 0xC1, 0x18, 0x01] = .ok (.rcrRmvImm8 ⟨.w32, [.opSize]⟩ (.mem (.based32 .eax .none)) 1) ∧
  decode .w32 [0x69, 0xC0, 0x02, 0x00, 0x00, 0x00] = .ok (.imulRvRmvImmz ⟨.w32, []⟩ .eax (.reg .eax) (.i32 2)) ∧
  decode .w32 [0x8D, 0x44, 0x98, 0x08] = .ok (.leaRvM ⟨.w32, []⟩ .eax (.sib .x4 .ebx .eax (.d8 8))) ∧
  decode .w32 [0xC7, 0x05, 0x00, 0x10, 0x00, 0x00, 0x01, 0x00, 0x00, 0x00] =
    .ok (.movRmvImmz ⟨.w32, []⟩ (.mem (.direct32 0x1000)) (.i32 1)) ∧
  decode .w32 [0xA1, 0x00, 0x10, 0x00, 0x00] = .ok (.movEaxMoffsv ⟨.w32, []⟩ (.i32 0x1000)) ∧
  decode .w16 [0x50] = .ok (.pushRv ⟨.w16, []⟩ .eax) ∧
  decode .w32 [0x0F, 0x84, 0x00, 0x01, 0x00, 0x00] = .ok (.jccRelz ⟨.w32, []⟩ .e (.i32 0x100)) ∧
  decode .w32 [0xE8, 0x00, 0x00, 0x00, 0x00] = .ok (.callRelz ⟨.w32, []⟩ (.i32 0)) ∧
  decode .w32 [0xC2, 0x08, 0x00] = .ok (.retImm16 ⟨.w32, []⟩ 8) ∧
  decode .w16 [0xF8] = .ok (.clc ⟨.w16, []⟩) ∧
  decode .w32 [0x0F, 0x94, 0xC0] = .ok (.setccRm8 ⟨.w32, []⟩ .e 0 (.reg .eax))

/-- Decoding the encoding of a well-formed instruction, whatever bytes follow it, gives the instruction back
(30_encoding.md R105, R134 to R140). -/
def Obligations.DecodeOfEncodeIsIdentity : Prop :=
  ∀ (i : Instr) (rest : List Byte), i.wf = true → decode i.pfx.dflt (encode i ++ rest) = .ok i

/-- What decodes is well-formed, was decoded under the given default size, and its encoding is the bytes it was read
from; so no byte of an encoding is dropped. Its length is their number, 1 to 15 (30_encoding.md R104, R144;
40_unit_protocol.md R161). -/
def Obligations.DecodedInstructionIsItsBytes : Prop :=
  ∀ (z : OpSize) (bytes : List Byte) (i : Instr), decode z bytes = .ok i →
    i.wf = true ∧ i.pfx.dflt = z ∧ (∃ rest, bytes = encode i ++ rest) ∧ (encode i).length = i.len ∧
      1 ≤ i.len ∧ i.len ≤ 15

/-- The reserved encodings of R142, and only they, are the decode fault Reserved, after any prefixes the machine
admits and whatever bytes follow. -/
def Obligations.ReservedEncodingsFault : Prop :=
  ∀ (z : OpSize) (l : List Prefix) (op next : Byte) (rest : List Byte),
    (⟨z, l⟩ : Prefixes).wf = true → l.length ≤ 13 → Prefix.ofByte op = none →
      (asUnit (decode z (prefixBytes l ++ op :: next :: rest)) = .error (.fault .reserved) ↔
        reservedPair op next = true)

/-- Opcodes, two-byte opcodes and group extensions that have no row, and the prefixes LOCK and REP among them, are
refused by their bytes (R109, R136, R137, R138, R141). -/
def Obligations.EncodingsWithoutARowAreRefused : Prop :=
  ∀ (z : OpSize) (l : List Prefix) (op next : Byte) (rest : List Byte),
    (⟨z, l⟩ : Prefixes).wf = true → l.length ≤ 13 → Prefix.ofByte op = none →
      (op ≠ 0x0F → admittedOne op = false →
        decode z (prefixBytes l ++ op :: next :: rest) = .error (.notAdmitted [op])) ∧
      (op = 0x0F → admittedTwo next = false →
        decode z (prefixBytes l ++ op :: next :: rest) = .error (.notAdmitted [op, next])) ∧
      (refusedGroup op next = true →
        decode z (prefixBytes l ++ op :: next :: rest) = .error (.notAdmitted [op, next]))

/-- A second segment override that differs from the first is refused as soon as it is read; the same one again is not
(R108). -/
def Obligations.TwoSegmentOverridesAreRefused : Prop :=
  ∀ (z : OpSize) (l : List Prefix) (s s' : SegReg) (rest : List Byte),
    (⟨z, l⟩ : Prefixes).wf = true → l.length ≤ 14 → segOverride l = some s →
      (s ≠ s' → decode z (prefixBytes (l ++ [.seg s']) ++ rest) = .error .multipleSegmentOverride) ∧
      (s = s' → l.length ≤ 13 → ∀ b, Prefix.ofByte b = none → b = 0x90 →
        decode z (prefixBytes (l ++ [.seg s']) ++ b :: rest) = .ok (.nop ⟨z, l ++ [.seg s']⟩))

/-- An instruction longer than 15 bytes, prefixes included, is the decode fault TooLong, and so are 15 prefixes
(R104). -/
def Obligations.InstructionsOver15BytesAreTooLong : Prop :=
  (∀ (i : Instr) (rest : List Byte), partsWf i.layout = true → 15 < i.len →
    decode i.pfx.dflt (encode i ++ rest) = .error (.fault .tooLong)) ∧
  (∀ (z : OpSize) (l : List Prefix) (rest : List Byte), (⟨z, l⟩ : Prefixes).wf = true → 15 ≤ l.length →
    decode z (prefixBytes l ++ rest) = .error (.fault .tooLong))

/-- The ModRM resolver with AS = 16: the table of base and index, the displacement alone, the displacement sizes, the
default segment and the override in its place, the cells consumed (R112, R114, R115, R116, R117). -/
def Obligations.AddressForms16 : Prop :=
  ∀ (b : Byte) (c c' : List Cell) (rm : Rm), readRm .w16 b c = .ok (rm, c') →
    (modField b = 3 → rm = .reg (Reg.ofIndex (rmField b)) ∧ c' = c) ∧
    (modField b ≠ 3 → ∃ m ea, rm = .mem m ∧ MemForm.ea m = ea ∧ ea.asize = .w16 ∧
      (∀ p : Prefixes, rmRef p rm = .mem ((segOverride p.list).getD (MemForm.defaultSeg m)) ea) ∧
      (modField b = 0 → rmField b = 6 →
        ea.base = none ∧ ea.index = none ∧ MemForm.defaultSeg m = .ds ∧ reads16 2 c c' ea.disp) ∧
      (¬(modField b = 0 ∧ rmField b = 6) →
        ea.base = some (base16 (rmField b)) ∧ ea.index = index16 (rmField b) ∧
        MemForm.defaultSeg m = (if base16 (rmField b) = .ebp then .ss else .ds) ∧
        reads16 (modField b).toNat c c' ea.disp))

/-- The ModRM and SIB resolver with AS = 32: base and scaled index, the displacement alone, the displacement sizes, the
default segment and the override in its place, the cells consumed (R112, R119, R120, R121, R122, R123, R124, R125). -/
def Obligations.AddressForms32 : Prop :=
  ∀ (b : Byte) (c c' : List Cell) (rm : Rm), readRm .w32 b c = .ok (rm, c') →
    (modField b = 3 → rm = .reg (Reg.ofIndex (rmField b)) ∧ c' = c) ∧
    (modField b ≠ 3 → ∃ m ea, rm = .mem m ∧ MemForm.ea m = ea ∧ ea.asize = .w32 ∧
      (∀ p : Prefixes, rmRef p rm = .mem ((segOverride p.list).getD (MemForm.defaultSeg m)) ea) ∧
      (rmField b ≠ 4 → ea.index = none ∧
        (modField b = 0 → rmField b = 5 → ea.base = none ∧ MemForm.defaultSeg m = .ds ∧ reads32 4 c c' ea.disp) ∧
        (¬(modField b = 0 ∧ rmField b = 5) → ea.base = some (Reg.ofIndex (rmField b)) ∧
          MemForm.defaultSeg m = (if rmField b = 5 then .ss else .ds) ∧ reads32 (modField b).toNat c c' ea.disp)) ∧
      (rmField b = 4 → ∃ sib d, c = .byte sib :: d ∧
        (regField sib = 4 → ea.index = none) ∧
        (regField sib ≠ 4 → ∃ sc, ea.index = some (Reg.ofIndex (regField sib), sc) ∧
          Scale.factor sc = 2 ^ (modField sib).toNat) ∧
        (modField b = 0 → rmField sib = 5 → ea.base = none ∧ MemForm.defaultSeg m = .ds ∧ reads32 4 d c' ea.disp) ∧
        (¬(modField b = 0 ∧ rmField sib = 5) → ea.base = some (Reg.ofIndex (rmField sib)) ∧
          MemForm.defaultSeg m = (if rmField sib = 4 ∨ rmField sib = 5 then .ss else .ds) ∧
          reads32 (modField b).toNat d c' ea.disp)))

/-- The offset of an address expression is the sum of base, scaled index and displacement modulo 2^asize, each register
through the view of the address size (10_state.md R54; R118, R126). -/
def Obligations.OffsetIsTheSumModuloAddressSize : Prop :=
  ∀ (ea : EA) (g : Gprs),
    (ea.asize = .w32 → (ea.off g).toNat =
      ((ea.base.elim 0 fun r => (g.get r).toNat) +
        (ea.index.elim 0 fun x => (g.get x.1).toNat * Scale.factor x.2) + ea.disp.toNat) % 2 ^ 32) ∧
    (ea.asize = .w16 → (ea.off g).toNat =
      ((ea.base.elim 0 fun r => (g.get r).toNat % 2 ^ 16) +
        (ea.index.elim 0 fun x => (g.get x.1).toNat % 2 ^ 16 * Scale.factor x.2) + ea.disp.toNat) % 2 ^ 16)

/-! ### Registers, memory, the host's access -/

/-- A write through the 16- or 8-bit view replaces exactly the bits of that view, and no bit of another register; a read
gives the bits of the view (10_state.md R31, R32, R33). -/
def Obligations.SubRegisterViewsAlias : Prop :=
  ∀ (g : Gprs) (r q : Reg) (k : Nat),
    (∀ v : BitVec 32, (g.setView .s32 r v).get q = if q = r then v else g.get q) ∧
    (∀ v : BitVec 16, ((g.setView .s16 r v).get q).getLsbD k =
      if q = r ∧ k < 16 then v.getLsbD k else (g.get q).getLsbD k) ∧
    (∀ v : BitVec 8, ((g.setView .s8 r v).get q).getLsbD k =
      if r.index.toNat < 4 then (if q = r ∧ k < 8 then v.getLsbD k else (g.get q).getLsbD k)
      else (if q.index.toNat = r.index.toNat - 4 ∧ 8 ≤ k ∧ k < 16 then v.getLsbD (k - 8)
        else (g.get q).getLsbD k)) ∧
    g.view .s32 r = g.get r ∧
    (k < 16 → (g.view .s16 r).getLsbD k = (g.get r).getLsbD k) ∧
    (k < 8 → r.index.toNat < 4 → (g.view .s8 r).getLsbD k = (g.get r).getLsbD k) ∧
    (k < 8 → q.index.toNat + 4 = r.index.toNat → (g.view .s8 r).getLsbD k = (g.get q).getLsbD (k + 8))

/-- Memory is little-endian at every width and every address, wrapping at 2^32: a stored value's bytes read back as
v[8k+7:8k], every other byte is as before, and a read of n bytes composes them lowest address first
(20_memory.md R73, R76, R77, R80). -/
def Obligations.MemoryIsLittleEndian : Prop :=
  ∀ (m : Memory) (a : Word) (z : Size) (v : BitVec z.bits), Memory.wf m = true →
    (∀ k < z.bytes, Memory.read (Memory.writeBytes m a (leBytes z.bytes v.toNat)) (a + BitVec.ofNat 32 k).toNat =
      v.extractLsb' (8 * k) 8) ∧
    (∀ x : Word, (∀ k < z.bytes, x ≠ a + BitVec.ofNat 32 k) →
      Memory.read (Memory.writeBytes m a (leBytes z.bytes v.toNat)) x.toNat = Memory.read m x.toNat) ∧
    (∀ k j, k < z.bytes → j < 8 →
      (BitVec.ofNat z.bits (leValue (Memory.readBytes m a z.bytes))).getLsbD (8 * k + j) =
        (Memory.read m (a + BitVec.ofNat 32 k).toNat).getLsbD j)

/-- The finite tables that stand for the access oracle express every oracle on the accesses this block makes, which have
1, 2 or 4 bytes (20_memory.md R74, R82): so a statement about every state is a statement about every oracle. The table
is the model's choice: notes/assumptions/2.md. -/
def Obligations.OracleTablesExpressEveryOracle : Prop :=
  ∀ f : AccessKind → SegReg → Word → Nat → AccessAnswer, ∃ t : List AccessRule, ∀ k g off n,
    n = 1 ∨ n = 2 ∨ n = 4 → oracleAnswer t k g off n = f k g off n

/-- `setPhysicalMemory` stores byte k at address + k, wrapping, leaves every other byte and everything else of the
state alone, and keeps the memory canonical (20_memory.md R72). -/
def Obligations.HostWritesMemoryBytewise : Prop :=
  ∀ (s : State) (a : Word) (bytes : List Byte), Memory.wf s.mem = true → bytes.length ≤ 2 ^ 32 →
    (∀ k b, bytes[k]? = some b →
      Memory.read (s.setPhysicalMemory a bytes).mem (a + BitVec.ofNat 32 k).toNat = b) ∧
    (∀ x : Word, (∀ k < bytes.length, x ≠ a + BitVec.ofNat 32 k) →
      Memory.read (s.setPhysicalMemory a bytes).mem x.toNat = Memory.read s.mem x.toNat) ∧
    Memory.wf (s.setPhysicalMemory a bytes).mem = true ∧
    { s.setPhysicalMemory a bytes with mem := s.mem } = s

/-- Reset, for every value of the parameters: the values of 10_state.md R60 and 70_reset_and_hazards.md R450, and the
first fetch at linear FFFFFFF0. State.reset is this state under the parameters the log names
(notes/assumptions/2.md to 5.md): that last clause is the model's choice, since R8 and R60 leave RESET_EDX,
MAX_BLOCK_LEN and Access open. -/
def Obligations.ResetLeavesTheStatedValues : Prop :=
  (∀ q : Params,
    let s := State.resetWith q
    (∀ r, r ≠ .edx → s.gpr.get r = 0) ∧ s.gpr.edx = q.resetEdx ∧ s.eip = 0x0000FFF0 ∧
    s.flags = ⟨false, false, false, false, false, false⟩ ∧ s.eflagsOther = 0x00000002 ∧ s.tf = false ∧
    s.mode = .real ∧ s.codeSize32 = false ∧ s.stackSize32 = false ∧ s.cpl = 0 ∧
    s.seg.cs = ⟨0xF000, 0xFFFF0000⟩ ∧ (∀ g, g ≠ .cs → s.seg.get g = ⟨0, 0⟩) ∧ s.refused = none ∧
    s.lin .cs s.eip = 0xFFFFFFF0) ∧
  State.reset = State.resetWith Params.default

/-- The snapshot is a lossless round trip, both ways: writing what was read changes nothing, and reading what was
written gives it back, eip among it; the 26 words are in the order of the rule's table, and one out of range refuses
(40_unit_protocol.md R187; 10_state.md R48). The first half needs the six status bits to stand in one place only and cpl
to be that of the mode. The refusal clause is in part the model's choice: that a list of another length than 26 is out
of range (notes/assumptions/16.md), and what a refusal leaves in the state (notes/assumptions/9.md). -/
def Obligations.SnapshotRoundTrips : Prop :=
  (∀ s : State, s.getState =
    [s.gpr.eax, s.gpr.ecx, s.gpr.edx, s.gpr.ebx, s.gpr.esp, s.gpr.ebp, s.gpr.esi, s.gpr.edi, s.eip, s.eflags] ++
    [SegReg.es, .cs, .ss, .ds, .fs, .gs].map (fun g => (s.seg.get g).sel.setWidth 32) ++
    [SegReg.es, .cs, .ss, .ds, .fs, .gs].map (fun g => (s.seg.get g).base) ++
    [match s.mode with | .real => 0 | .prot => 1 | .v86 => 2, if s.codeSize32 then 1 else 0,
      if s.stackSize32 then 1 else 0, s.cpl.setWidth 32]) ∧
  (∀ s : State, s.eflagsOther &&& statusMask = 0 → Mode.allowsCpl s.mode s.cpl.toNat = true →
    s.setState s.getState = s) ∧
  (∀ (s : State) (a : List Word), inRange a → (s.setState a).getState = a ∧ (s.setState a).refused = s.refused) ∧
  (∀ (s : State) (a : List Word), ¬inRange a → s.setState a = s.refuse .invalidSnapshot)

/-- The EFLAGS image: CF, PF, AF, ZF, SF, OF at bits 0, 2, 4, 6, 7, 11, the other bits eflagsOther's; writing an image
sets the six flags from those bits and eflagsOther to the image with them cleared (10_state.md R42). -/
def Obligations.EflagsImagePlacesTheFlags : Prop :=
  (∀ (s : State) (k : Nat), s.eflags.getLsbD k =
    match k with
    | 0 => s.flags.cf
    | 2 => s.flags.pf
    | 4 => s.flags.af
    | 6 => s.flags.zf
    | 7 => s.flags.sf
    | 11 => s.flags.of
    | _ => s.eflagsOther.getLsbD k) ∧
  (∀ (s : State) (a : List Word), inRange a →
    let w := a.getD 9 0
    (s.setState a).flags =
      ⟨w.getLsbD 0, w.getLsbD 2, w.getLsbD 4, w.getLsbD 6, w.getLsbD 7, w.getLsbD 11⟩ ∧
    ∀ k, (s.setState a).eflagsOther.getLsbD k =
      if k = 0 ∨ k = 2 ∨ k = 4 ∨ k = 6 ∨ k = 7 ∨ k = 11 then false else w.getLsbD k)

/-! ### Steps and blocks -/

/-- Where memory holds the encoding of a well-formed instruction and the oracle lets its bytes be fetched, the fetch
decodes that instruction; at the first of its bytes that cannot be fetched, decoding stops with the oracle's fault, or
as unmodelled memory (20_memory.md R75, R78; 30_encoding.md R101, R103). What decodes has the state's default sizes, 32
exactly in Protected mode with CS.D set (10_state.md R46, R49); OS and AS are the other size exactly when 66 and 67 are
among its prefix bytes (30_encoding.md R106). -/
def Obligations.FetchDecodesTheEncodedInstruction : Prop :=
  (∀ (s : State) (off : Word) (i : Instr), i.wf = true → i.pfx.dflt = s.dflt →
    (∀ k b, (encode i)[k]? = some b →
      s.access .fetch .cs (off + BitVec.ofNat 32 k) 1 = .ok ∧
        Memory.read s.mem (s.lin .cs (off + BitVec.ofNat 32 k)).toNat = b) →
    s.decodeAt off = .ok i) ∧
  (∀ (s : State) (off : Word) (i : Instr) (n : Nat), i.wf = true → i.pfx.dflt = s.dflt → n < i.len →
    (∀ k b, k < n → (encode i)[k]? = some b →
      s.access .fetch .cs (off + BitVec.ofNat 32 k) 1 = .ok ∧
        Memory.read s.mem (s.lin .cs (off + BitVec.ofNat 32 k)).toNat = b) →
    (∀ v c, s.access .fetch .cs (off + BitVec.ofNat 32 n) 1 = .fault v c →
      s.decodeAt off = .error (.fault (.fetchFault v c))) ∧
    (s.access .fetch .cs (off + BitVec.ofNat 32 n) 1 = .unmodelled → s.decodeAt off = .error .unmodelledMemory)) ∧
  (∀ (s : State) (off : Word) (i : Instr), s.decodeAt off = .ok i → i.pfx.dflt = s.dflt) ∧
  (∀ s : State, s.dflt = .w32 ↔ s.mode = .prot ∧ s.codeSize32 = true) ∧
  (∀ p : Prefixes, (p.opSize ≠ p.dflt ↔ (0x66 : Byte) ∈ prefixBytes p.list) ∧
    (p.addrSize ≠ p.dflt ↔ (0x67 : Byte) ∈ prefixBytes p.list))

/-- A step runs the decoded instruction. At a block's entry it is exec of the instruction decoded at eip, in the block
assembled there, whose other units follow it; inside a block it is exec of the next unit. `settle` then ends the block
on a trap or after the last unit, or moves to the unit after (40_unit_protocol.md R165, R180). Cutting the block at its
units is the model's choice: notes/assumptions/1.md. -/
def Obligations.StepRunsTheDecodedInstruction : Prop :=
  (∀ (s : State) (i : Instr), s.refused = none → s.block = none → s.ended = false → s.tf = false →
    s.decodeAt s.eip = .ok i → Instr.kind i ≠ .reserved →
    ∃ rest, s.assemble = .block ⟨s.eip, i⟩ rest ∧
      step s =
        match exec i (s.enter (⟨s.eip, i⟩ :: rest)) with
        | .next t => .next (settle ⟨s.eip, s.mode, [], ⟨s.eip, i⟩ :: rest⟩ ⟨s.eip, i⟩ rest t)
        | .fault f => .fault f
        | .refused r => .refused r) ∧
  (∀ (s : State) (b : RunningBlock) (i : Instr) (rest : List InsnUnit), s.refused = none → s.block = some b →
    b.mode = s.mode → b.todo = ⟨s.eip, i⟩ :: rest →
    step s =
      match exec i s with
      | .next t => .next (settle b ⟨s.eip, i⟩ rest t)
      | .fault f => .fault f
      | .refused r => .refused r)

/-- `executeBlock` as R180 writes it and the run of steps from the block's entry to its end are the same, for every
state between blocks (40_unit_protocol.md R165, R180). That a step is one unit, and that `ended` stops the steps after
a run has ended, are the model's choices: notes/assumptions/1.md, 8.md. -/
def Obligations.ExecuteBlockIsItsSteps : Prop :=
  ∀ s : State, s.params.wf = true → s.refused = none → s.block = none → s.ended = false →
    executeBlock s = runBlock s.params.maxBlockLen s

/-- An assembled block: it starts at eip, each unit starts where the one before it ends and is what decodes there, only
its last unit may be a terminator, it has at most MAX_BLOCK_LEN units, and it stops only at a terminator, at that
bound, or before bytes that are no unit; there is a block exactly when a unit decodes at eip. The terminators are those
of the rule (40_unit_protocol.md R175, R176, R177, R183). -/
def Obligations.AssembledBlockIsAsSpecified : Prop :=
  (∀ i : Instr, Instr.kind i = .terminator ↔ isTransfer i = true) ∧
  (∀ s : State, (∃ u rest, s.assemble = .block u rest) ↔ ∃ i, asUnit (s.decodeAt s.eip) = .ok i) ∧
  ∀ (s : State) (u : InsnUnit) (rest : List InsnUnit), s.params.wf = true → s.assemble = .block u rest →
    u.start = s.eip ∧
    (∀ w ∈ u :: rest, asUnit (s.decodeAt w.start) = .ok w.instr) ∧
    (∀ k w x, (u :: rest)[k]? = some w → (u :: rest)[k + 1]? = some x →
      x.start = w.start + BitVec.ofNat 32 w.instr.len ∧ Instr.kind w.instr = .plain) ∧
    (u :: rest).length ≤ s.params.maxBlockLen ∧
    (∀ w, (u :: rest).getLast? = some w →
      Instr.kind w.instr = .terminator ∨ (u :: rest).length = s.params.maxBlockLen ∨
        ∃ e, asUnit (s.decodeAt (w.start + BitVec.ofNat 32 w.instr.len)) = .error e)

/-- What `executeBlock` returns and where eip is then: the state is the one that the last unit run left, the result is
`endOf` its tag, the count that of the units that completed (the unit at that count is the faulting one on a trap, the
one before it the last otherwise); eip is at the target of a jump or a taken branch, after the last unit otherwise, at
the faulting unit on a trap, at the entry on a decode fault (40_unit_protocol.md R180, R181, R182). -/
def Obligations.BlockResultAndEip : Prop :=
  (∀ (s : State) (k : DecodeFault), s.refused = none → s.tf = false → s.assemble = .fault k →
    (executeBlock s).report = some ⟨0, .decodeFault k⟩ ∧ (executeBlock s).eip = s.eip) ∧
  ∀ (s : State) (u : InsnUnit) (rest : List InsnUnit), s.refused = none → s.tf = false →
    s.assemble = .block u rest → (executeBlock s).refused = none →
    ∃ r, (executeBlock s).report = some r ∧ (executeBlock s).block = none ∧
      r.result = endOf (executeBlock s).lastTag ∧
      (∃ w before after, (u :: rest)[if isTrap r.result then r.count else r.count - 1]? = some w ∧
        before.eip = w.start ∧ exec w.instr before = .next after ∧
        executeBlock s = { after with block := none, report := some r }) ∧
      ∀ last, (u :: rest).getLast? = some last →
        match r.result with
        | .fallthrough => r.count = (u :: rest).length ∧
            (executeBlock s).eip = last.start + BitVec.ofNat 32 last.instr.len
        | .jump t => r.count = (u :: rest).length ∧ (executeBlock s).eip = t
        | .cond true t => r.count = (u :: rest).length ∧ (executeBlock s).eip = t
        | .cond false _ => r.count = (u :: rest).length ∧
            (executeBlock s).eip = last.start + BitVec.ofNat 32 last.instr.len
        | .halt => r.count = (u :: rest).length ∧
            (executeBlock s).eip = last.start + BitVec.ofNat 32 last.instr.len
        | .trap _ _ => ∃ w, (u :: rest)[r.count]? = some w ∧ (executeBlock s).eip = w.start
        | .decodeFault _ => False

/-- What stops at a block's entry: a refused state has no step; TF = 1 refuses; a decode fault is the block's result
with count 0 and the state unchanged, UD2's Reserved among them; an encoding not admitted, two segment overrides and a
byte of unmodelled memory refuse, in `step` and in `executeBlock`. The driver sees Reserved as vector 6 without a code,
TooLong as vector 13 with code 0, a fetch fault and a trap as their own (10_state.md R43; 20_memory.md R75, R78;
30_encoding.md R108, R109, R141, R142; 40_unit_protocol.md R168, R180, R183; 60_exceptions.md R402, R403, R404).
The model's choices in it: steps cut at units (notes/assumptions/1.md), the form of a refusal (9.md), UD2's constructor
(10.md). -/
def Obligations.EntryStops : Prop :=
  (∀ (s : State) (r : Refusal), s.refused = some r → step s = .refused r ∧ executeBlock s = s) ∧
  (∀ s : State, s.refused = none → s.block = none → s.ended = false → s.tf = true →
    step s = .refused .singleStepUnmodelled ∧ executeBlock s = s.refuse .singleStepUnmodelled) ∧
  (∀ (s : State) (k : DecodeFault), s.refused = none → s.block = none → s.ended = false → s.tf = false →
    asUnit (s.decodeAt s.eip) = .error (.fault k) →
    step s = .next { s with block := none, report := some ⟨0, .decodeFault k⟩ } ∧
      executeBlock s = { s with block := none, report := some ⟨0, .decodeFault k⟩ }) ∧
  (∀ (s : State) (e : DecodeStop) (r : Refusal), s.refused = none → s.block = none → s.ended = false →
    s.tf = false → asUnit (s.decodeAt s.eip) = .error e →
    (∃ b, e = .notAdmitted b ∧ r = .notAdmitted b) ∨
      (e = .multipleSegmentOverride ∧ r = .multipleSegmentOverride) ∨
      (e = .unmodelledMemory ∧ r = .unmodelledMemory) →
    step s = .refused r ∧ executeBlock s = s.refuse r) ∧
  (∀ s : State, s.access .fetch .cs s.eip 1 = .unmodelled →
    asUnit (s.decodeAt s.eip) = .error .unmodelledMemory) ∧
  ((BlockEnd.decodeFault .reserved).exception = some (6, none) ∧
    (BlockEnd.decodeFault .tooLong).exception = some (13, some 0) ∧
    ∀ v c, (BlockEnd.decodeFault (.fetchFault v c)).exception = some (v, c) ∧
      (BlockEnd.trap v c).exception = some (v, c)) ∧
  (∀ (p : Prefixes) (s : State), asUnit (.ok (.ud2 p)) = .error (.fault .reserved) ∧
    exec (.ud2 p) s = .next { s with block := none, report := some ⟨0, .decodeFault .reserved⟩ })

/-- The invariant holds at reset, under all parameters within their bounds. -/
def Obligations.InvariantAtReset : Prop :=
  State.reset.wf = true ∧ ∀ q : Params, q.wf = true → (State.resetWith q).wf = true

/-- Every step keeps the invariant: memory canonical, parameters within their bounds, the six status bits only in the
flags (10_state.md R43), cpl that of the mode (R48), the running block of the state's mode and its units in sequence
with the next one at eip (40_unit_protocol.md R165, R175, R178). -/
def Obligations.EveryStepKeepsTheInvariant : Prop :=
  ∀ s t : State, s.wf = true → step s = .next t → t.wf = true

/-- From a state that meets the invariant the only fault is the end of the run: the invalid-mode-cast of 60_exceptions.md
R401 and a unit away from eip (40_unit_protocol.md R165, R178) do not arise. -/
def Obligations.InvariantExcludesInternalFaults : Prop :=
  ∀ (s : State) (f : Fault), s.wf = true → step s = .fault f → f = .runEnded ∧ s.ended = true

/-! ### What every instruction keeps -/

/-- No instruction writes eflagsOther, the mode, the segment state or the privilege level, the default sizes, the
parameters or the refusal (10_state.md R43, R45, R51). -/
def Obligations.SystemStateIsNeverWritten : Prop :=
  ∀ (i : Instr) (s t : State), exec i s = .next t →
    t.eflagsOther = s.eflagsOther ∧ t.mode = s.mode ∧ t.codeSize32 = s.codeSize32 ∧
    t.stackSize32 = s.stackSize32 ∧ t.cpl = s.cpl ∧ t.seg = s.seg ∧ t.params = s.params ∧ t.refused = s.refused

/-- Every general register but those the instruction's rule writes is unchanged: its destination, and ESP for the stack
instructions, EAX and EDX for multiply, divide and sign extension, both operands of XCHG (10_state.md R35). -/
def Obligations.OtherRegistersUnchanged : Prop :=
  ∀ (i : Instr) (s t : State) (r : Reg), exec i s = .next t → r ∉ written i → t.gpr.get r = s.gpr.get r

/-- Every flag the instruction's rule does not list is unchanged (10_state.md R41). -/
def Obligations.OtherFlagsUnchanged : Prop :=
  ∀ (i : Instr) (s t : State) (f : FlagName), exec i s = .next t → f ∉ flagsWritten i →
    flagOf t.flags f = flagOf s.flags f

/-- Every byte of memory outside the bytes the instruction stores to reads as before; for a form that stores nothing,
every byte. `stored` computes the address from the operand's reference and the registers at the unit's start
(10_state.md R55; 20_memory.md R77; 45_data_move.md R318). -/
def Obligations.OtherMemoryUnchanged : Prop :=
  ∀ (i : Instr) (s t : State) (x : Word), exec i s = .next t →
    (∀ a n, stored i s = some (a, n) → ∀ k < n, x ≠ a + BitVec.ofNat 32 k) →
    Memory.read t.mem x.toNat = Memory.read s.mem x.toNat

/-- The tag of a completed unit decides eip, and a trap changes nothing but the tag: registers, flags, memory and eip
are as before the unit (40_unit_protocol.md R164, R165, R166; 46_control.md R330, R331; 60_exceptions.md R403). -/
def Obligations.TagDecidesEipAndTrapsArePrecise : Prop :=
  ∀ (i : Instr) (s t : State), exec i s = .next t → Instr.kind i ≠ .reserved →
    match t.lastTag with
    | .noBranch => Instr.kind i = .plain ∧ t.eip = nextOf i s
    | .jump d => Instr.kind i = .terminator ∧ t.eip = d
    | .cond true d => Instr.kind i = .terminator ∧ t.eip = d
    | .cond false _ => Instr.kind i = .terminator ∧ t.eip = nextOf i s
    | .halt => isHlt i = true ∧ t.eip = nextOf i s
    | .trap v c => t = { s with lastTag := .trap v c }

/-- Every unit asks its checks in the order of its own rule and stops at the first that fails: a fault is a trap with
nothing committed, an unmodelled range refuses; when all pass, a store into the running block refuses, and otherwise the
instruction completes without a trap (20_memory.md R75, R76, R77; 40_unit_protocol.md R166, R167; 60_exceptions.md R406;
70_reset_and_hazards.md R460). -/
def Obligations.ChecksDecideTheOutcomeInOrder : Prop :=
  ∀ (i : Instr) (s : State), Instr.kind i ≠ .reserved →
    match firstFailure s (checks i s) with
    | .fault v c => exec i s = .next { s with lastTag := .trap v c }
    | .unmodelled => exec i s = .refused .unmodelledMemory
    | .ok =>
      if storeHits i s then exec i s = .refused .selfModifyingBlock
      else ∃ t, exec i s = .next t ∧ ∀ v c, t.lastTag ≠ .trap v c

/-- The only readers of a flag are ADC, SBB, RCL, RCR and CMC (CF), and Jcc and SETcc (the flags of their condition):
with every flag an instruction reads held, changing the others changes nothing but themselves (10_state.md R44). -/
def Obligations.OnlyTheNamedFlagsAreRead : Prop :=
  ∀ (i : Instr) (s : State) (f : Flags), (∀ x ∈ flagsRead i, flagOf f x = flagOf s.flags x) →
    match exec i s with
    | .next t => ∃ f', exec i { s with flags := f } = .next { t with flags := f' } ∧
        ∀ x, flagOf f' x = flagOf t.flags x ∨ (flagOf f' x = flagOf f x ∧ flagOf t.flags x = flagOf s.flags x)
    | .refused r => exec i { s with flags := f } = .refused r
    | .fault r => exec i { s with flags := f } = .fault r

/-- eflagsOther, codeSize32 and, outside HLT, cpl do not bear on what an instruction does; the mode and stackSize32 bear
only on HLT and the stack instructions (10_state.md R43, R46, R47, R48; 60_exceptions.md R415). -/
def Obligations.ModeBearsOnlyOnStackAndHlt : Prop :=
  (∀ (i : Instr) (s : State) (o : Word) (d : Bool),
    exec i { s with eflagsOther := o, codeSize32 := d } =
      mapNext (fun t => { t with eflagsOther := o, codeSize32 := d }) (exec i s)) ∧
  (∀ (i : Instr) (s : State) (c : BitVec 2), isHlt i = false →
    exec i { s with cpl := c } = mapNext (fun t => { t with cpl := c }) (exec i s)) ∧
  (∀ (i : Instr) (s : State) (m : Mode) (w : Bool), isHlt i = false → usesStack i = false →
    exec i { s with mode := m, stackSize32 := w } =
      mapNext (fun t => { t with mode := m, stackSize32 := w }) (exec i s)) ∧
  (∀ (i : Instr) (s : State) (w : Bool), s.mode ≠ .prot →
    exec i { s with stackSize32 := w } = mapNext (fun t => { t with stackSize32 := w }) (exec i s))

/-! ### Results: arithmetic and logic -/

/-- ADD and ADC, every form: dst becomes a + b, or a + b + CF, with the six flags of `addFlags`; nothing else changes but
eip, which goes past the instruction (41_arith.md R201, R202; 40_unit_protocol.md R169, R170, R171). -/
def Obligations.AddAndAdcResult : Prop :=
  ∀ (p : Prefixes) (f : AluForm) (s : State),
    s.readable (f.size p) (f.dst p) = true → srcReadable s (f.size p) (f.src p) = true →
    s.writable (f.size p) (f.dst p) = true →
    let a := s.operand (f.size p) (f.dst p)
    let b := srcValue s (f.size p) (f.src p)
    exec (aluInstr p .add f) s = .next (s.advance (aluInstr p .add f)
      { s.withOperand (f.size p) (f.dst p) (sum a b false) with flags := sumFlags a b false }) ∧
    exec (aluInstr p .adc f) s = .next (s.advance (aluInstr p .adc f)
      { s.withOperand (f.size p) (f.dst p) (sum a b s.flags.cf) with flags := sumFlags a b s.flags.cf })

/-- SUB and SBB, every form: dst becomes a - b, or a - b - CF, with the six flags of `subFlags` (41_arith.md R203, R204;
40_unit_protocol.md R172). CMP sets the flags of SUB and writes no operand (R205). -/
def Obligations.SubSbbAndCmpResult : Prop :=
  ∀ (p : Prefixes) (f : AluForm) (s : State),
    s.readable (f.size p) (f.dst p) = true → srcReadable s (f.size p) (f.src p) = true →
    let a := s.operand (f.size p) (f.dst p)
    let b := srcValue s (f.size p) (f.src p)
    (s.writable (f.size p) (f.dst p) = true →
      exec (aluInstr p .sub f) s = .next (s.advance (aluInstr p .sub f)
        { s.withOperand (f.size p) (f.dst p) (difference a b false) with flags := differenceFlags a b false }) ∧
      exec (aluInstr p .sbb f) s = .next (s.advance (aluInstr p .sbb f)
        { s.withOperand (f.size p) (f.dst p) (difference a b s.flags.cf) with
          flags := differenceFlags a b s.flags.cf })) ∧
    exec (aluInstr p .cmp f) s =
      .next (s.advance (aluInstr p .cmp f) { s with flags := differenceFlags a b false })

/-- INC and DEC, every form: dst becomes a + 1 or a - 1, with the flags of that sum or difference but CF, which is
unchanged (41_arith.md R206, R207). -/
def Obligations.IncAndDecKeepCarry : Prop :=
  ∀ (p : Prefixes) (f : OneForm) (s : State),
    s.readable (f.size p) (f.ref p) = true → s.writable (f.size p) (f.ref p) = true →
    let a := s.operand (f.size p) (f.ref p)
    let one := BitVec.ofNat (f.size p).bits 1
    exec (incInstr p f) s = .next (s.advance (incInstr p f)
      { s.withOperand (f.size p) (f.ref p) (a + one) with
        flags := { sumFlags a one false with cf := s.flags.cf } }) ∧
    exec (decInstr p f) s = .next (s.advance (decInstr p f)
      { s.withOperand (f.size p) (f.ref p) (a - one) with
        flags := { differenceFlags a one false with cf := s.flags.cf } })

/-- NEG: dst becomes 0 - a, with the flags of that difference, CF = (a ≠ 0). NOT: dst becomes the complement, no flag
changes (41_arith.md R208; 42_logic.md R234). -/
def Obligations.NegAndNotResult : Prop :=
  ∀ (p : Prefixes) (f : F6Form) (s : State),
    s.readable (f.size p) (f.ref p) = true → s.writable (f.size p) (f.ref p) = true →
    let a := s.operand (f.size p) (f.ref p)
    exec (f6Instr p .neg f) s = .next (s.advance (f6Instr p .neg f)
      { s.withOperand (f.size p) (f.ref p) (-a) with
        flags := { differenceFlags 0 a false with cf := decide (a ≠ 0) } }) ∧
    exec (f6Instr p .not f) s =
      .next (s.advance (f6Instr p .not f) (s.withOperand (f.size p) (f.ref p) (~~~a)))

/-- AND, OR and XOR, every form: dst becomes the bitwise result, CF = OF = 0, SF, ZF, PF from the result, AF unchanged
(42_logic.md R230, R231, R232; 40_unit_protocol.md R173). -/
def Obligations.LogicResult : Prop :=
  ∀ (p : Prefixes) (f : AluForm) (s : State),
    s.readable (f.size p) (f.dst p) = true → srcReadable s (f.size p) (f.src p) = true →
    s.writable (f.size p) (f.dst p) = true →
    let a := s.operand (f.size p) (f.dst p)
    let b := srcValue s (f.size p) (f.src p)
    exec (aluInstr p .and f) s = .next (s.advance (aluInstr p .and f)
      { s.withOperand (f.size p) (f.dst p) (a &&& b) with flags := logicalFlags (a &&& b) s.flags }) ∧
    exec (aluInstr p .or f) s = .next (s.advance (aluInstr p .or f)
      { s.withOperand (f.size p) (f.dst p) (a ||| b) with flags := logicalFlags (a ||| b) s.flags }) ∧
    exec (aluInstr p .xor f) s = .next (s.advance (aluInstr p .xor f)
      { s.withOperand (f.size p) (f.dst p) (a ^^^ b) with flags := logicalFlags (a ^^^ b) s.flags })

/-- TEST, every form: the flags of AND, no operand written (42_logic.md R233). -/
def Obligations.TestResult : Prop :=
  ∀ (p : Prefixes) (f : TestForm) (s : State),
    s.readable (f.size p) (f.src1 p) = true → srcReadable s (f.size p) (f.src2 p) = true →
    exec (testInstr p f) s = .next (s.advance (testInstr p f)
      { s with flags :=
          logicalFlags (s.operand (f.size p) (f.src1 p) &&& srcValue s (f.size p) (f.src2 p)) s.flags })

/-! ### Results: shifts and rotates -/

/-- ROL and ROR, every form: a count that is 0 modulo 32 changes nothing; otherwise dst is rotated, CF is the bit rotated
out as the rule says, OF is set for a count of 1 and unchanged else, no other flag changes (43_shift_rotate.md R250,
R251, R252). -/
def Obligations.RolAndRorResult : Prop :=
  ∀ (p : Prefixes) (f : ShiftForm) (s : State), s.readable (f.size p) (f.dst p) = true →
    let a := s.operand (f.size p) (f.dst p)
    let m := f.count s % 32
    (m = 0 → exec (shiftInstr p .rol f) s = .next (s.advance (shiftInstr p .rol f) s) ∧
      exec (shiftInstr p .ror f) s = .next (s.advance (shiftInstr p .ror f) s)) ∧
    (m ≠ 0 → s.writable (f.size p) (f.dst p) = true →
      (let r := a.rotateLeft m
       let cf := r.getLsbD 0
       exec (shiftInstr p .rol f) s = .next (s.advance (shiftInstr p .rol f)
        { s.withOperand (f.size p) (f.dst p) r with
          flags := rotateFlags cf (if m = 1 then r.msb ^^ cf else s.flags.of) s.flags })) ∧
      (let r := a.rotateRight m
       exec (shiftInstr p .ror f) s = .next (s.advance (shiftInstr p .ror f)
        { s.withOperand (f.size p) (f.dst p) r with
          flags := rotateFlags r.msb
            (if m = 1 then r.msb ^^ r.getLsbD ((f.size p).bits - 2) else s.flags.of) s.flags })))

/-- RCL and RCR, every form: CF and dst rotate together, N + 1 bits; a count that is 0 modulo N + 1 changes nothing; OF
is set for a count of 1 and unchanged else, no other flag changes (43_shift_rotate.md R250, R253, R254). -/
def Obligations.RclAndRcrResult : Prop :=
  ∀ (p : Prefixes) (f : ShiftForm) (s : State), s.readable (f.size p) (f.dst p) = true →
    let t := BitVec.cons s.flags.cf (s.operand (f.size p) (f.dst p))
    let m := carryCount s (f.count s)
    let k := m % ((f.size p).bits + 1)
    (k = 0 → exec (shiftInstr p .rcl f) s = .next (s.advance (shiftInstr p .rcl f) s) ∧
      exec (shiftInstr p .rcr f) s = .next (s.advance (shiftInstr p .rcr f) s)) ∧
    (k ≠ 0 → s.writable (f.size p) (f.dst p) = true →
      (let u := t.rotateLeft k
       let r := u.setWidth (f.size p).bits
       exec (shiftInstr p .rcl f) s = .next (s.advance (shiftInstr p .rcl f)
        { s.withOperand (f.size p) (f.dst p) r with
          flags := rotateFlags u.msb (if m = 1 then r.msb ^^ u.msb else s.flags.of) s.flags })) ∧
      (let u := t.rotateRight k
       let r := u.setWidth (f.size p).bits
       exec (shiftInstr p .rcr f) s = .next (s.advance (shiftInstr p .rcr f)
        { s.withOperand (f.size p) (f.dst p) r with
          flags := rotateFlags u.msb
            (if m = 1 then r.msb ^^ r.getLsbD ((f.size p).bits - 2) else s.flags.of) s.flags })))

/-- SHL and SHR, every form: a count that is 0 modulo 32 changes nothing; otherwise dst is shifted, CF is the last bit
shifted out, SF, ZF, PF are the result's, OF is set for a count of 1 and unchanged else, AF is unchanged. For a count
above N, CF is the draw ShiftUndef: some bit, of which nothing is said, and the draw counter is higher by 1; else it
stands (43_shift_rotate.md R250, R255, R256; the counter is the model's: notes/assumptions/7.md). -/
def Obligations.ShlAndShrResult : Prop :=
  ∀ (p : Prefixes) (f : ShiftForm) (s : State), s.readable (f.size p) (f.dst p) = true →
    let n := (f.size p).bits
    let a := s.operand (f.size p) (f.dst p)
    let m := f.count s % 32
    (m = 0 → exec (shiftInstr p .shl f) s = .next (s.advance (shiftInstr p .shl f) s) ∧
      exec (shiftInstr p .shr f) s = .next (s.advance (shiftInstr p .shr f) s)) ∧
    (m ≠ 0 → s.writable (f.size p) (f.dst p) = true →
      (∃ cf : Bool, (m ≤ n → cf = a.getLsbD (n - m)) ∧
        exec (shiftInstr p .shl f) s = .next (s.advance (shiftInstr p .shl f)
          { s.withOperand (f.size p) (f.dst p) (a <<< m) with
            draws := if m ≤ n then s.draws else s.draws + 1
            flags := shiftFlags (a <<< m) cf (if m = 1 then (a <<< m).msb ^^ cf else s.flags.of) s.flags })) ∧
      (∃ cf : Bool, (m ≤ n → cf = a.getLsbD (m - 1)) ∧
        exec (shiftInstr p .shr f) s = .next (s.advance (shiftInstr p .shr f)
          { s.withOperand (f.size p) (f.dst p) (a >>> m) with
            draws := if m ≤ n then s.draws else s.draws + 1
            flags := shiftFlags (a >>> m) cf (if m = 1 then a.msb else s.flags.of) s.flags })))

/-- SAR, every form: the arithmetic shift, floor division by 2^m; CF the last bit shifted out, the sign bit beyond the
width; OF = 0 for a count of 1 and unchanged else (43_shift_rotate.md R250, R257). -/
def Obligations.SarResult : Prop :=
  ∀ (p : Prefixes) (f : ShiftForm) (s : State), s.readable (f.size p) (f.dst p) = true →
    let n := (f.size p).bits
    let a := s.operand (f.size p) (f.dst p)
    let m := f.count s % 32
    (m = 0 → exec (shiftInstr p .sar f) s = .next (s.advance (shiftInstr p .sar f) s)) ∧
    (m ≠ 0 → s.writable (f.size p) (f.dst p) = true →
      exec (shiftInstr p .sar f) s = .next (s.advance (shiftInstr p .sar f)
        { s.withOperand (f.size p) (f.dst p) (a.sshiftRight m) with
          flags := shiftFlags (a.sshiftRight m) (if m ≤ n then a.getLsbD (m - 1) else a.msb)
            (if m = 1 then false else s.flags.of) s.flags }))

/-! ### Results: multiply and divide -/

/-- MUL and one-operand IMUL: the exact double-width product in AX, DX:AX or EDX:EAX, CF = OF = 1 exactly when the high
half is not 0, or the product does not fit in N signed bits. SF, ZF, AF and PF are draws: some bits, of which nothing is
said, and the draw counter is higher by 4 (44_muldiv.md R280, R281, R282; the counter is the model's:
notes/assumptions/7.md). -/
def Obligations.MultiplyResult : Prop :=
  ∀ (p : Prefixes) (f : F6Form) (s : State), s.readable (f.size p) (f.ref p) = true →
    let n := (f.size p).bits
    let a := s.gpr.view (f.size p) .eax
    let b := s.operand (f.size p) (f.ref p)
    (∃ pf af zf sf,
      let x := a.toNat * b.toNat
      let ov := decide (2 ^ n ≤ x)
      exec (f6Instr p .mul f) s = .next (s.advance (f6Instr p .mul f)
        { s with
          gpr := productGpr s.gpr (f.size p) (BitVec.ofNat n (x / 2 ^ n)) (BitVec.ofNat n x)
          flags := ⟨ov, pf, af, zf, sf, ov⟩
          draws := s.draws + 4 })) ∧
    (∃ pf af zf sf,
      let x := a.toInt * b.toInt
      let ov := decide (x < -2 ^ (n - 1) ∨ 2 ^ (n - 1) ≤ x)
      exec (f6Instr p .imul f) s = .next (s.advance (f6Instr p .imul f)
        { s with
          gpr := productGpr s.gpr (f.size p) (BitVec.ofInt n (x / 2 ^ n)) (BitVec.ofInt n x)
          flags := ⟨ov, pf, af, zf, sf, ov⟩
          draws := s.draws + 4 }))

/-- Two- and three-operand IMUL: dst becomes the truncated signed product, CF = OF = the product does not fit. In the
two-operand row SF, ZF, AF, PF are draws, and the draw counter is higher by 4; in the two three-operand rows SF, ZF,
PF are the result's and AF is a draw, and the counter is higher by 1 (44_muldiv.md R280, R283, R284; the draw counter is
the model's: notes/assumptions/7.md). -/
def Obligations.ImulTwoAndThreeOperandsResult : Prop :=
  ∀ (p : Prefixes) (reg : Reg) (rm : Rm) (s : State), s.readable p.opSize.size (rmRef p rm) = true →
    let n := p.opSize.size.bits
    let src := s.operand p.opSize.size (rmRef p rm)
    let overflow (x : Int) : Bool := decide (x < -2 ^ (n - 1) ∨ 2 ^ (n - 1) ≤ x)
    let three (i : Instr) (imm : BitVec n) : Prop :=
      let x := src.toInt * imm.toInt
      let r := BitVec.ofInt n x
      ∃ af, exec i s = .next (s.advance i
        { s with
          gpr := s.gpr.setView p.opSize.size reg r
          flags := ⟨overflow x, evenLow r, af, decide (r = 0), r.getLsbD (n - 1), overflow x⟩
          draws := s.draws + 1 })
    (let x := (s.gpr.view p.opSize.size reg).toInt * src.toInt
     ∃ pf af zf sf, exec (.imulRvRmv p reg rm) s = .next (s.advance (.imulRvRmv p reg rm)
      { s with
        gpr := s.gpr.setView p.opSize.size reg (BitVec.ofInt n x)
        flags := ⟨overflow x, pf, af, zf, sf, overflow x⟩
        draws := s.draws + 4 })) ∧
    (∀ v, three (.imulRvRmvImmz p reg rm v) (immValue p.opSize.size v)) ∧
    (∀ v, three (.imulRvRmvImm8 p reg rm v) (v.signExtend n))

/-- DIV and IDIV: quotient and remainder, unsigned or truncated toward zero with the dividend's sign, in AL and AH, AX
and DX, or EAX and EDX, no flag changes; and where the divisor is 0 or the quotient does not fit, #DE, vector 0 without an
error code, with no effect (44_muldiv.md R285, R286; 60_exceptions.md R402). -/
def Obligations.DivideResultOrError : Prop :=
  ∀ (p : Prefixes) (f : F6Form) (s : State), s.readable (f.size p) (f.ref p) = true →
    let n := (f.size p).bits
    let d := s.operand (f.size p) (f.ref p)
    (divFails s (f.size p) (f.ref p) = false →
      exec (f6Instr p .div f) s = .next (s.advance (f6Instr p .div f)
        { s with
          gpr := quotientGpr s.gpr (f.size p)
            (BitVec.ofNat n ((dividend s.gpr (f.size p)).toNat / d.toNat))
            (BitVec.ofNat n ((dividend s.gpr (f.size p)).toNat % d.toNat)) })) ∧
    (idivFails s (f.size p) (f.ref p) = false →
      exec (f6Instr p .idiv f) s = .next (s.advance (f6Instr p .idiv f)
        { s with
          gpr := quotientGpr s.gpr (f.size p)
            (BitVec.ofInt n (signedQuotient s (f.size p) (f.ref p)))
            (BitVec.ofInt n (signedRemainder s (f.size p) (f.ref p))) })) ∧
    (divFails s (f.size p) (f.ref p) = true →
      exec (f6Instr p .div f) s = .next { s with lastTag := .trap 0 none }) ∧
    (idivFails s (f.size p) (f.ref p) = true →
      exec (f6Instr p .idiv f) s = .next { s with lastTag := .trap 0 none })

/-- CBW and CWDE extend the sign of AL into AX, of AX into EAX; CWD and CDQ fill DX or EDX with the sign of AX or EAX; no
flag changes (44_muldiv.md R287, R288). -/
def Obligations.SignExtensionOfTheAccumulator : Prop :=
  ∀ (p : Prefixes) (s : State),
    (p.opSize = .w16 →
      exec (.cbwCwde p) s = .next (s.advance (.cbwCwde p)
        { s with gpr := s.gpr.setView .s16 .eax (BitVec.ofInt 16 (s.gpr.view .s8 .eax).toInt) }) ∧
      exec (.cwdCdq p) s = .next (s.advance (.cwdCdq p)
        { s with gpr := s.gpr.setView .s16 .edx ((s.gpr.view .s16 .eax).sshiftRight 15) })) ∧
    (p.opSize = .w32 →
      exec (.cbwCwde p) s = .next (s.advance (.cbwCwde p)
        { s with gpr := s.gpr.setView .s32 .eax (BitVec.ofInt 32 (s.gpr.view .s16 .eax).toInt) }) ∧
      exec (.cwdCdq p) s = .next (s.advance (.cwdCdq p)
        { s with gpr := s.gpr.setView .s32 .edx ((s.gpr.view .s32 .eax).sshiftRight 31) }))

/-! ### Results: moves and the stack -/

/-- MOV, every form: dst becomes src, no flag changes (45_data_move.md R300, R301, R302, R303). -/
def Obligations.MovResult : Prop :=
  ∀ (p : Prefixes) (f : MovForm) (s : State),
    srcReadable s (f.size p) (f.src p) = true → s.writable (f.size p) (f.dst p) = true →
    exec (movInstr p f) s = .next (s.advance (movInstr p f)
      (s.withOperand (f.size p) (f.dst p) (srcValue s (f.size p) (f.src p))))

/-- LEA writes the offset alone, truncated to OS or zero-extended, and accesses no memory. MOVZX and MOVSX read 8 or 16
bits and extend them (45_data_move.md R304, R305, R306). -/
def Obligations.LeaAndExtendingMovesResult : Prop :=
  ∀ (p : Prefixes) (reg : Reg) (s : State),
    let z := p.opSize.size
    (∀ m : MemForm, exec (.leaRvM p reg m) s = .next (s.advance (.leaRvM p reg m)
      { s with gpr := s.gpr.setView z reg (BitVec.ofNat z.bits ((MemForm.ea m).off s.gpr).toNat) })) ∧
    (∀ rm : Rm, s.readable .s8 (rmRef p rm) = true →
      exec (.movzxRvRm8 p reg rm) s = .next (s.advance (.movzxRvRm8 p reg rm)
        { s with gpr := s.gpr.setView z reg (BitVec.ofNat z.bits (s.operand .s8 (rmRef p rm)).toNat) }) ∧
      exec (.movsxRvRm8 p reg rm) s = .next (s.advance (.movsxRvRm8 p reg rm)
        { s with gpr := s.gpr.setView z reg (BitVec.ofInt z.bits (s.operand .s8 (rmRef p rm)).toInt) })) ∧
    (∀ rm : Rm, s.readable .s16 (rmRef p rm) = true →
      exec (.movzxRvRm16 p reg rm) s = .next (s.advance (.movzxRvRm16 p reg rm)
        { s with gpr := s.gpr.setView z reg (BitVec.ofNat z.bits (s.operand .s16 (rmRef p rm)).toNat) }) ∧
      exec (.movsxRvRm16 p reg rm) s = .next (s.advance (.movsxRvRm16 p reg rm)
        { s with gpr := s.gpr.setView z reg (BitVec.ofInt z.bits (s.operand .s16 (rmRef p rm)).toInt) }))

/-- XCHG, every form: each operand gets what the other held before the unit, no flag changes (45_data_move.md R307,
R308). -/
def Obligations.XchgResult : Prop :=
  ∀ (p : Prefixes) (f : XchgForm) (s : State),
    s.readable (f.size p) (f.op1 p) = true → s.writable (f.size p) (f.op1 p) = true →
    exec (xchgInstr p f) s = .next (s.advance (xchgInstr p f)
      ((s.withOperand (f.size p) (f.op1 p) (s.gpr.view (f.size p) f.op2)).withOperand (f.size p) (.reg f.op2)
        (s.operand (f.size p) (f.op1 p))))

/-- SETcc writes 1 or 0 by the table of conditions to one byte whatever OS and the reg field are
(45_data_move.md R323; 46_control.md R334). -/
def Obligations.SetccResult : Prop :=
  ∀ (p : Prefixes) (cc : Cond) (ext : BitVec 3) (rm : Rm) (s : State), s.writable .s8 (rmRef p rm) = true →
    exec (.setccRm8 p cc ext rm) s = .next (s.advance (.setccRm8 p cc ext rm)
      (s.withOperand .s8 (rmRef p rm) (if condition cc s.flags then 1#8 else 0#8)))

/-- PUSH, every form: the stack pointer goes down by the operand size, modulo the stack width, and the value, read
before the push, is stored there in SS; no flag changes (45_data_move.md R318, R319, R320, R321). -/
def Obligations.PushResult : Prop :=
  ∀ (p : Prefixes) (f : PushForm) (s : State),
    srcReadable s p.opSize.size (f.src p) = true → s.canPush p.opSize.size = true →
    exec (pushInstr p f) s = .next (s.advance (pushInstr p f)
      (pushed s p.opSize.size (srcValue s p.opSize.size (f.src p))))

/-- POP: the value at the stack pointer in SS goes to the register after the stack pointer went up, so POP ESP holds the
value popped; no flag changes (45_data_move.md R318, R322). -/
def Obligations.PopResult : Prop :=
  ∀ (p : Prefixes) (r : Reg) (s : State), s.canPop p.opSize.size = true →
    let z := p.opSize.size
    exec (.popRv p r) s = .next (s.advance (.popRv p r)
      { s with
        gpr := (withSp s (spPlus s z.bytes)).setView z r
          (BitVec.ofNat z.bits (leValue (Memory.readBytes s.mem (s.lin .ss (spOf s)) z.bytes))) })

/-! ### Results: control transfer, flags, HLT -/

/-- Jcc, both forms: by the table of conditions eip goes to nextEIP + rel, truncated with OS = 16, or to nextEIP; nothing
else changes (46_control.md R332, R334, R335, R336). -/
def Obligations.JccResult : Prop :=
  ∀ (p : Prefixes) (cc : Cond) (s : State),
    let result (i : Instr) (rel : Word) : Prop :=
      let t := target p (nextOf i s + rel)
      (condition cc s.flags = true → s.canBranch t = true →
        exec i s = .next { s with eip := t, lastTag := .cond true t }) ∧
      (condition cc s.flags = false → exec i s = .next { s with eip := nextOf i s, lastTag := .cond false t })
    (∀ rel : BitVec 8, result (.jccRel8 p cc rel) (rel.signExtend 32)) ∧
    (∀ v : BitVec 16, result (.jccRelz p cc (.i16 v)) (v.signExtend 32)) ∧
    (∀ v : BitVec 32, result (.jccRelz p cc (.i32 v)) v)

/-- JMP, every form: eip goes to the target, relative or held by the operand, truncated with OS = 16; nothing else
changes (46_control.md R332, R337, R338, R342). -/
def Obligations.JmpResult : Prop :=
  ∀ (p : Prefixes) (s : State),
    let jumps (i : Instr) (t : Word) : Prop :=
      s.canBranch t = true → exec i s = .next { s with eip := t, lastTag := .jump t }
    (∀ rel : BitVec 8, jumps (.jmpRel8 p rel) (target p (nextOf (.jmpRel8 p rel) s + rel.signExtend 32))) ∧
    (∀ v : BitVec 16,
      jumps (.jmpRelz p (.i16 v)) (target p (nextOf (.jmpRelz p (.i16 v)) s + v.signExtend 32))) ∧
    (∀ v : BitVec 32, jumps (.jmpRelz p (.i32 v)) (target p (nextOf (.jmpRelz p (.i32 v)) s + v))) ∧
    (∀ rm : Rm, s.readable p.opSize.size (rmRef p rm) = true →
      jumps (.jmpRmv p rm) (pointed p s (rmRef p rm)))

/-- CALL, every form: nextEIP, at the operand size, is pushed and eip goes to the target, which an r/m operand gives with
the registers before the push (46_control.md R332, R339, R345; 45_data_move.md R318). -/
def Obligations.CallResult : Prop :=
  ∀ (p : Prefixes) (s : State), s.canPush p.opSize.size = true →
    let calls (i : Instr) (t : Word) : Prop :=
      s.canBranch t = true →
        exec i s = .next { pushed s p.opSize.size ((nextOf i s).setWidth p.opSize.size.bits) with
          eip := t, lastTag := .jump t }
    (∀ v : BitVec 16,
      calls (.callRelz p (.i16 v)) (target p (nextOf (.callRelz p (.i16 v)) s + v.signExtend 32))) ∧
    (∀ v : BitVec 32, calls (.callRelz p (.i32 v)) (target p (nextOf (.callRelz p (.i32 v)) s + v))) ∧
    (∀ rm : Rm, s.readable p.opSize.size (rmRef p rm) = true →
      calls (.callRmv p rm) (pointed p s (rmRef p rm)))

/-- RET and RET imm16: eip goes to the value popped, the stack pointer up by the operand size and the bytes released
(46_control.md R332, R340, R341; 45_data_move.md R318). -/
def Obligations.RetResult : Prop :=
  ∀ (p : Prefixes) (s : State), s.canPop p.opSize.size = true → s.canBranch (returned p s) = true →
    let returns (i : Instr) (k : Nat) : Prop :=
      exec i s = .next { s with
        gpr := withSp s (spPlus s (p.opSize.size.bytes + k))
        eip := returned p s
        lastTag := .jump (returned p s) }
    returns (.ret p) 0 ∧ ∀ v : BitVec 16, returns (.retImm16 p v) v.toNat

/-- CLC, STC and CMC write CF alone; NOP writes nothing; each moves eip past itself (47_flag_misc.md R360, R361, R362,
R363). -/
def Obligations.CarryFlagInstructionsAndNop : Prop :=
  ∀ (p : Prefixes) (s : State),
    exec (.clc p) s = .next (s.advance (.clc p) { s with flags := { s.flags with cf := false } }) ∧
    exec (.stc p) s = .next (s.advance (.stc p) { s with flags := { s.flags with cf := true } }) ∧
    exec (.cmc p) s = .next (s.advance (.cmc p) { s with flags := { s.flags with cf := !s.flags.cf } }) ∧
    exec (.nop p) s = .next (s.advance (.nop p) s)

/-- HLT at privilege level 0 halts with eip after it and everything else unchanged; elsewhere it is #GP(0), vector 13 with
error code 0, with no effect (47_flag_misc.md R364; 60_exceptions.md R402, R414). -/
def Obligations.HltHaltsOrIsPrivileged : Prop :=
  ∀ (p : Prefixes) (s : State),
    (s.mode = .real ∨ (s.mode = .prot ∧ s.cpl = 0) →
      exec (.hlt p) s = .next { s with eip := nextOf (.hlt p) s, lastTag := .halt }) ∧
    (s.mode = .v86 ∨ (s.mode = .prot ∧ s.cpl ≠ 0) →
      exec (.hlt p) s = .next { s with lastTag := .trap 13 (some 0) })
end

