-- ==== Sys2Proof/Laws/Memory.lean ====
section
/-! SUPPORT. Laws/Memory: reading after writing, on one byte and on a run of bytes, and that every memory
operation keeps the canonical form (20_memory.md R70, R72, R76, R77). -/

namespace Sys2Proof.Machine

/-! ### One byte -/

@[simp] theorem Memory.read_nil (a : Nat) : Memory.read [] a = unlistedByte := rfl

theorem Memory.read_cons (k : Nat) (b : Byte) (m : Memory) (a : Nat) :
    Memory.read ((k, b) :: m) a = if k = a then b else Memory.read m a := rfl

/-- Below the lower bound of a canonical memory nothing is listed. -/
theorem Memory.read_of_lt {m : Memory} {lo a : Nat} (h : Memory.wfFrom lo m = true) (ha : a < lo) :
    Memory.read m a = unlistedByte := by
  induction m generalizing lo with
  | nil => rfl
  | cons c m ih =>
    obtain ⟨k, b⟩ := c
    simp only [Memory.wfFrom, Bool.and_eq_true, decide_eq_true_eq] at h
    rw [Memory.read_cons, if_neg (by omega)]
    exact ih h.2 (by omega)

theorem Memory.wfFrom_mono {m : Memory} {lo lo' : Nat} (h : Memory.wfFrom lo m = true) (hl : lo' ≤ lo) :
    Memory.wfFrom lo' m = true := by
  cases m with
  | nil => rfl
  | cons c m =>
    obtain ⟨k, b⟩ := c
    simp only [Memory.wfFrom, Bool.and_eq_true, decide_eq_true_eq] at h ⊢
    exact ⟨⟨⟨by omega, h.1.1.2⟩, h.1.2⟩, h.2⟩

/-- A write keeps the canonical form. -/
theorem Memory.write_wfFrom {m : Memory} {lo a : Nat} (v : Byte) (h : Memory.wfFrom lo m = true)
    (hlo : lo ≤ a) (ha : a < 2 ^ 32) : Memory.wfFrom lo (Memory.write m a v) = true := by
  induction m generalizing lo with
  | nil =>
    by_cases hv : v = unlistedByte <;> simp [Memory.write, Memory.wfFrom, hv, hlo]
    simpa using ha
  | cons c m ih =>
    obtain ⟨k, b⟩ := c
    have h' := h
    simp only [Memory.wfFrom, Bool.and_eq_true, decide_eq_true_eq] at h
    obtain ⟨⟨⟨h1, h2⟩, h3⟩, h4⟩ := h
    unfold Memory.write
    split
    · next hlt =>
      split
      · exact h'
      · next hv =>
        simp only [Memory.wfFrom, Bool.and_eq_true, decide_eq_true_eq]
        exact ⟨⟨⟨hlo, ha⟩, by simpa using hv⟩, ⟨⟨by omega, h2⟩, h3⟩, h4⟩
    · next hge =>
      split
      · next heq =>
        subst heq
        split
        · exact Memory.wfFrom_mono h4 (by omega)
        · next hv =>
          simp only [Memory.wfFrom, Bool.and_eq_true, decide_eq_true_eq]
          exact ⟨⟨⟨h1, h2⟩, by simpa using hv⟩, h4⟩
      · next hne =>
        simp only [Memory.wfFrom, Bool.and_eq_true, decide_eq_true_eq]
        exact ⟨⟨⟨h1, h2⟩, h3⟩, ih h4 (by omega)⟩

theorem Memory.write_wf {m : Memory} {a : Nat} (v : Byte) (h : Memory.wf m = true) (ha : a < 2 ^ 32) :
    Memory.wf (Memory.write m a v) = true :=
  Memory.write_wfFrom v h (Nat.zero_le a) ha

/-- A byte written is the byte read, in a canonical memory. -/
theorem Memory.read_write_same {m : Memory} {lo : Nat} (a : Nat) (v : Byte) (h : Memory.wfFrom lo m = true) :
    Memory.read (Memory.write m a v) a = v := by
  induction m generalizing lo with
  | nil => by_cases hv : v = unlistedByte <;> simp [Memory.write, Memory.read, hv]
  | cons c m ih =>
    obtain ⟨k, b⟩ := c
    simp only [Memory.wfFrom, Bool.and_eq_true, decide_eq_true_eq] at h
    unfold Memory.write
    split
    · next hlt =>
      split
      · next hv => rw [Memory.read_cons, if_neg (by omega), Memory.read_of_lt h.2 (by omega), hv]
      · simp [Memory.read]
    · next hge =>
      split
      · next heq =>
        subst heq
        split
        · next hv => rw [Memory.read_of_lt h.2 (by omega), hv]
        · simp [Memory.read]
      · next hne => rw [Memory.read_cons, if_neg (by omega)]; exact ih h.2

/-- A write leaves every other byte alone. -/
theorem Memory.read_write_other (m : Memory) {a a' : Nat} (v : Byte) (h : a' ≠ a) :
    Memory.read (Memory.write m a v) a' = Memory.read m a' := by
  induction m with
  | nil => by_cases hv : v = unlistedByte <;> simp [Memory.write, Memory.read, hv, Ne.symm h]
  | cons c m ih =>
    obtain ⟨k, b⟩ := c
    unfold Memory.write
    split
    · split
      · rfl
      · rw [Memory.read_cons, if_neg (Ne.symm h)]
    · split
      · next heq =>
        subst heq
        split
        · rw [Memory.read_cons, if_neg (Ne.symm h)]
        · rw [Memory.read_cons, Memory.read_cons, if_neg (Ne.symm h), if_neg (Ne.symm h)]
      · rw [Memory.read_cons, Memory.read_cons, ih]

/-! ### A run of bytes -/

@[simp] theorem leBytes_length (n v : Nat) : (leBytes n v).length = n := by
  induction n generalizing v with
  | zero => rfl
  | succ n ih => simp [leBytes, ih]

/-- Byte k of a value is its bits 8k+7 to 8k. -/
theorem leBytes_getElem {n v k : Nat} (h : k < n) :
    (leBytes n v)[k]'(by simpa using h) = BitVec.ofNat 8 (v / 256 ^ k) := by
  induction n generalizing v k with
  | zero => omega
  | succ n ih =>
    cases k with
    | zero => simp [leBytes]
    | succ k =>
      simp only [leBytes, List.getElem_cons_succ]
      rw [ih (by omega), Nat.div_div_eq_div_mul, Nat.pow_succ, Nat.mul_comm]

/-- The bytes of a value give the value back, below the bound. -/
theorem leValue_leBytes (n v : Nat) : leValue (leBytes n v) = v % 256 ^ n := by
  induction n generalizing v with
  | zero => simp [leBytes, leValue, Nat.mod_one]
  | succ n ih =>
    have e : (256 : Nat) ^ (n + 1) = 256 * 256 ^ n := by rw [Nat.pow_succ, Nat.mul_comm]
    rw [leBytes, leValue, ih, BitVec.toNat_ofNat, e, Nat.mod_mul]

@[simp] theorem Memory.readBytes_length (m : Memory) (a : Word) (n : Nat) :
    (Memory.readBytes m a n).length = n := by
  induction n generalizing a with
  | zero => rfl
  | succ n ih => simp [Memory.readBytes, ih]

theorem Memory.writeBytes_wf {m : Memory} (a : Word) (l : List Byte) (h : Memory.wf m = true) :
    Memory.wf (Memory.writeBytes m a l) = true := by
  induction l generalizing m a with
  | nil => exact h
  | cons b l ih => exact ih (a + 1) (Memory.write_wf b h a.isLt)

/-- A run of bytes written leaves every byte outside it alone. -/
theorem Memory.read_writeBytes_other (m : Memory) (a : Word) (l : List Byte) (x : Word)
    (h : ∀ k < l.length, x ≠ a + BitVec.ofNat 32 k) :
    Memory.read (Memory.writeBytes m a l) x.toNat = Memory.read m x.toNat := by
  induction l generalizing m a with
  | nil => rfl
  | cons b l ih =>
    rw [Memory.writeBytes, ih]
    · apply Memory.read_write_other
      intro e
      exact h 0 (by simp) (by simpa using BitVec.eq_of_toNat_eq e)
    · intro k hk e
      refine h (k + 1) (by simpa using hk) ?_
      rw [e, BitVec.add_assoc]
      congr 1
      apply BitVec.eq_of_toNat_eq
      simp [BitVec.toNat_add, Nat.add_comm]

/-- A run of at most 2^32 bytes written is read back byte for byte, in a canonical memory. -/
theorem Memory.read_writeBytes_same {m : Memory} (a : Word) (l : List Byte) (h : Memory.wf m = true)
    (hl : l.length ≤ 2 ^ 32) {k : Nat} (hk : k < l.length) :
    Memory.read (Memory.writeBytes m a l) (a + BitVec.ofNat 32 k).toNat = l[k] := by
  induction l generalizing m a k with
  | nil => simp at hk
  | cons b l ih =>
    rw [Memory.writeBytes]
    simp only [List.length_cons] at hl hk
    cases k with
    | zero =>
      rw [Memory.read_writeBytes_other]
      · simpa using Memory.read_write_same (lo := 0) a.toNat b h
      · intro j hj e
        have := congrArg BitVec.toNat e
        have hjl : j < 2 ^ 32 - 1 := by omega
        have h1 := a.isLt
        simp [BitVec.toNat_add] at this
        omega
    | succ k =>
      have e : a + BitVec.ofNat 32 (k + 1) = a + 1 + BitVec.ofNat 32 k := by
        rw [BitVec.add_assoc]
        congr 1
        apply BitVec.eq_of_toNat_eq
        simp [BitVec.toNat_add, Nat.add_comm]
      rw [e, ih (a + 1) (Memory.write_wf b h a.isLt) (by omega) (by omega)]
      rfl

end Sys2Proof.Machine
end

