-- ==== Sys2Proof/Laws/State.lean ====
section
/-! SUPPORT. Laws/State: one lemma per field per update of State, each true by unfolding, so that no proof
unfolds a record update. -/

namespace Sys2Proof.Machine

/-! ### `State.commit` -/

@[simp] theorem State.commit_gpr (s : State) (len : Nat) (e : Effect) : (s.commit len e).gpr = e.gpr := rfl
@[simp] theorem State.commit_eip (s : State) (len : Nat) (e : Effect) : (s.commit len e).eip = e.tag.eip (s.nextEip len) := rfl
@[simp] theorem State.commit_flags (s : State) (len : Nat) (e : Effect) : (s.commit len e).flags = e.flags := rfl
@[simp] theorem State.commit_eflagsOther (s : State) (len : Nat) (e : Effect) : (s.commit len e).eflagsOther = s.eflagsOther := rfl
@[simp] theorem State.commit_mode (s : State) (len : Nat) (e : Effect) : (s.commit len e).mode = s.mode := rfl
@[simp] theorem State.commit_codeSize32 (s : State) (len : Nat) (e : Effect) : (s.commit len e).codeSize32 = s.codeSize32 := rfl
@[simp] theorem State.commit_stackSize32 (s : State) (len : Nat) (e : Effect) : (s.commit len e).stackSize32 = s.stackSize32 := rfl
@[simp] theorem State.commit_cpl (s : State) (len : Nat) (e : Effect) : (s.commit len e).cpl = s.cpl := rfl
@[simp] theorem State.commit_seg (s : State) (len : Nat) (e : Effect) : (s.commit len e).seg = s.seg := rfl
@[simp] theorem State.commit_mem (s : State) (len : Nat) (e : Effect) : (s.commit len e).mem = e.mem s.mem := rfl
@[simp] theorem State.commit_refused (s : State) (len : Nat) (e : Effect) : (s.commit len e).refused = s.refused := rfl
@[simp] theorem State.commit_params (s : State) (len : Nat) (e : Effect) : (s.commit len e).params = s.params := rfl
@[simp] theorem State.commit_block (s : State) (len : Nat) (e : Effect) : (s.commit len e).block = s.block := rfl
@[simp] theorem State.commit_lastTag (s : State) (len : Nat) (e : Effect) : (s.commit len e).lastTag = e.tag := rfl
@[simp] theorem State.commit_report (s : State) (len : Nat) (e : Effect) : (s.commit len e).report = s.report := rfl
@[simp] theorem State.commit_draws (s : State) (len : Nat) (e : Effect) : (s.commit len e).draws = e.draws := rfl

/-! ### `State.takeTrap` -/

@[simp] theorem State.takeTrap_gpr (s : State) (v : Nat) (c : Option Word) : (s.takeTrap v c).gpr = s.gpr := rfl
@[simp] theorem State.takeTrap_eip (s : State) (v : Nat) (c : Option Word) : (s.takeTrap v c).eip = s.eip := rfl
@[simp] theorem State.takeTrap_flags (s : State) (v : Nat) (c : Option Word) : (s.takeTrap v c).flags = s.flags := rfl
@[simp] theorem State.takeTrap_eflagsOther (s : State) (v : Nat) (c : Option Word) : (s.takeTrap v c).eflagsOther = s.eflagsOther := rfl
@[simp] theorem State.takeTrap_mode (s : State) (v : Nat) (c : Option Word) : (s.takeTrap v c).mode = s.mode := rfl
@[simp] theorem State.takeTrap_codeSize32 (s : State) (v : Nat) (c : Option Word) : (s.takeTrap v c).codeSize32 = s.codeSize32 := rfl
@[simp] theorem State.takeTrap_stackSize32 (s : State) (v : Nat) (c : Option Word) : (s.takeTrap v c).stackSize32 = s.stackSize32 := rfl
@[simp] theorem State.takeTrap_cpl (s : State) (v : Nat) (c : Option Word) : (s.takeTrap v c).cpl = s.cpl := rfl
@[simp] theorem State.takeTrap_seg (s : State) (v : Nat) (c : Option Word) : (s.takeTrap v c).seg = s.seg := rfl
@[simp] theorem State.takeTrap_mem (s : State) (v : Nat) (c : Option Word) : (s.takeTrap v c).mem = s.mem := rfl
@[simp] theorem State.takeTrap_refused (s : State) (v : Nat) (c : Option Word) : (s.takeTrap v c).refused = s.refused := rfl
@[simp] theorem State.takeTrap_params (s : State) (v : Nat) (c : Option Word) : (s.takeTrap v c).params = s.params := rfl
@[simp] theorem State.takeTrap_block (s : State) (v : Nat) (c : Option Word) : (s.takeTrap v c).block = s.block := rfl
@[simp] theorem State.takeTrap_lastTag (s : State) (v : Nat) (c : Option Word) : (s.takeTrap v c).lastTag = .trap v c := rfl
@[simp] theorem State.takeTrap_report (s : State) (v : Nat) (c : Option Word) : (s.takeTrap v c).report = s.report := rfl
@[simp] theorem State.takeTrap_draws (s : State) (v : Nat) (c : Option Word) : (s.takeTrap v c).draws = s.draws := rfl

/-! ### `State.decodeFault` -/

@[simp] theorem State.decodeFault_gpr (s : State) (k : DecodeFault) : (s.decodeFault k).gpr = s.gpr := rfl
@[simp] theorem State.decodeFault_eip (s : State) (k : DecodeFault) : (s.decodeFault k).eip = s.eip := rfl
@[simp] theorem State.decodeFault_flags (s : State) (k : DecodeFault) : (s.decodeFault k).flags = s.flags := rfl
@[simp] theorem State.decodeFault_eflagsOther (s : State) (k : DecodeFault) : (s.decodeFault k).eflagsOther = s.eflagsOther := rfl
@[simp] theorem State.decodeFault_mode (s : State) (k : DecodeFault) : (s.decodeFault k).mode = s.mode := rfl
@[simp] theorem State.decodeFault_codeSize32 (s : State) (k : DecodeFault) : (s.decodeFault k).codeSize32 = s.codeSize32 := rfl
@[simp] theorem State.decodeFault_stackSize32 (s : State) (k : DecodeFault) : (s.decodeFault k).stackSize32 = s.stackSize32 := rfl
@[simp] theorem State.decodeFault_cpl (s : State) (k : DecodeFault) : (s.decodeFault k).cpl = s.cpl := rfl
@[simp] theorem State.decodeFault_seg (s : State) (k : DecodeFault) : (s.decodeFault k).seg = s.seg := rfl
@[simp] theorem State.decodeFault_mem (s : State) (k : DecodeFault) : (s.decodeFault k).mem = s.mem := rfl
@[simp] theorem State.decodeFault_refused (s : State) (k : DecodeFault) : (s.decodeFault k).refused = s.refused := rfl
@[simp] theorem State.decodeFault_params (s : State) (k : DecodeFault) : (s.decodeFault k).params = s.params := rfl
@[simp] theorem State.decodeFault_block (s : State) (k : DecodeFault) : (s.decodeFault k).block = none := rfl
@[simp] theorem State.decodeFault_lastTag (s : State) (k : DecodeFault) : (s.decodeFault k).lastTag = s.lastTag := rfl
@[simp] theorem State.decodeFault_report (s : State) (k : DecodeFault) : (s.decodeFault k).report = some ⟨0, .decodeFault k⟩ := rfl
@[simp] theorem State.decodeFault_draws (s : State) (k : DecodeFault) : (s.decodeFault k).draws = s.draws := rfl

/-! ### `State.driverResume` -/

@[simp] theorem State.driverResume_gpr (s : State)  : (s.driverResume).gpr = s.gpr := rfl
@[simp] theorem State.driverResume_eip (s : State)  : (s.driverResume).eip = s.eip := rfl
@[simp] theorem State.driverResume_flags (s : State)  : (s.driverResume).flags = s.flags := rfl
@[simp] theorem State.driverResume_eflagsOther (s : State)  : (s.driverResume).eflagsOther = s.eflagsOther := rfl
@[simp] theorem State.driverResume_mode (s : State)  : (s.driverResume).mode = s.mode := rfl
@[simp] theorem State.driverResume_codeSize32 (s : State)  : (s.driverResume).codeSize32 = s.codeSize32 := rfl
@[simp] theorem State.driverResume_stackSize32 (s : State)  : (s.driverResume).stackSize32 = s.stackSize32 := rfl
@[simp] theorem State.driverResume_cpl (s : State)  : (s.driverResume).cpl = s.cpl := rfl
@[simp] theorem State.driverResume_seg (s : State)  : (s.driverResume).seg = s.seg := rfl
@[simp] theorem State.driverResume_mem (s : State)  : (s.driverResume).mem = s.mem := rfl
@[simp] theorem State.driverResume_refused (s : State)  : (s.driverResume).refused = s.refused := rfl
@[simp] theorem State.driverResume_params (s : State)  : (s.driverResume).params = s.params := rfl
@[simp] theorem State.driverResume_block (s : State)  : (s.driverResume).block = s.block := rfl
@[simp] theorem State.driverResume_lastTag (s : State)  : (s.driverResume).lastTag = s.lastTag := rfl
@[simp] theorem State.driverResume_report (s : State)  : (s.driverResume).report = none := rfl
@[simp] theorem State.driverResume_draws (s : State)  : (s.driverResume).draws = s.draws := rfl

/-! ### `State.refuse` -/

@[simp] theorem State.refuse_gpr (s : State) (r : Refusal) : (s.refuse r).gpr = s.gpr := rfl
@[simp] theorem State.refuse_eip (s : State) (r : Refusal) : (s.refuse r).eip = s.eip := rfl
@[simp] theorem State.refuse_flags (s : State) (r : Refusal) : (s.refuse r).flags = s.flags := rfl
@[simp] theorem State.refuse_eflagsOther (s : State) (r : Refusal) : (s.refuse r).eflagsOther = s.eflagsOther := rfl
@[simp] theorem State.refuse_mode (s : State) (r : Refusal) : (s.refuse r).mode = s.mode := rfl
@[simp] theorem State.refuse_codeSize32 (s : State) (r : Refusal) : (s.refuse r).codeSize32 = s.codeSize32 := rfl
@[simp] theorem State.refuse_stackSize32 (s : State) (r : Refusal) : (s.refuse r).stackSize32 = s.stackSize32 := rfl
@[simp] theorem State.refuse_cpl (s : State) (r : Refusal) : (s.refuse r).cpl = s.cpl := rfl
@[simp] theorem State.refuse_seg (s : State) (r : Refusal) : (s.refuse r).seg = s.seg := rfl
@[simp] theorem State.refuse_mem (s : State) (r : Refusal) : (s.refuse r).mem = s.mem := rfl
@[simp] theorem State.refuse_refused (s : State) (r : Refusal) : (s.refuse r).refused = some r := rfl
@[simp] theorem State.refuse_params (s : State) (r : Refusal) : (s.refuse r).params = s.params := rfl
@[simp] theorem State.refuse_block (s : State) (r : Refusal) : (s.refuse r).block = none := rfl
@[simp] theorem State.refuse_lastTag (s : State) (r : Refusal) : (s.refuse r).lastTag = s.lastTag := rfl
@[simp] theorem State.refuse_report (s : State) (r : Refusal) : (s.refuse r).report = none := rfl
@[simp] theorem State.refuse_draws (s : State) (r : Refusal) : (s.refuse r).draws = s.draws := rfl

/-! ### `State.enter` -/

@[simp] theorem State.enter_gpr (s : State) (l : List InsnUnit) : (s.enter l).gpr = s.gpr := rfl
@[simp] theorem State.enter_eip (s : State) (l : List InsnUnit) : (s.enter l).eip = s.eip := rfl
@[simp] theorem State.enter_flags (s : State) (l : List InsnUnit) : (s.enter l).flags = s.flags := rfl
@[simp] theorem State.enter_eflagsOther (s : State) (l : List InsnUnit) : (s.enter l).eflagsOther = s.eflagsOther := rfl
@[simp] theorem State.enter_mode (s : State) (l : List InsnUnit) : (s.enter l).mode = s.mode := rfl
@[simp] theorem State.enter_codeSize32 (s : State) (l : List InsnUnit) : (s.enter l).codeSize32 = s.codeSize32 := rfl
@[simp] theorem State.enter_stackSize32 (s : State) (l : List InsnUnit) : (s.enter l).stackSize32 = s.stackSize32 := rfl
@[simp] theorem State.enter_cpl (s : State) (l : List InsnUnit) : (s.enter l).cpl = s.cpl := rfl
@[simp] theorem State.enter_seg (s : State) (l : List InsnUnit) : (s.enter l).seg = s.seg := rfl
@[simp] theorem State.enter_mem (s : State) (l : List InsnUnit) : (s.enter l).mem = s.mem := rfl
@[simp] theorem State.enter_refused (s : State) (l : List InsnUnit) : (s.enter l).refused = s.refused := rfl
@[simp] theorem State.enter_params (s : State) (l : List InsnUnit) : (s.enter l).params = s.params := rfl
@[simp] theorem State.enter_block (s : State) (l : List InsnUnit) : (s.enter l).block = some ⟨s.eip, s.mode, [], l⟩ := rfl
@[simp] theorem State.enter_lastTag (s : State) (l : List InsnUnit) : (s.enter l).lastTag = s.lastTag := rfl
@[simp] theorem State.enter_report (s : State) (l : List InsnUnit) : (s.enter l).report = none := rfl
@[simp] theorem State.enter_draws (s : State) (l : List InsnUnit) : (s.enter l).draws = s.draws := rfl

/-! ### `State.setPhysicalMemory` -/

@[simp] theorem State.setPhysicalMemory_gpr (s : State) (a : Word) (l : List Byte) : (s.setPhysicalMemory a l).gpr = s.gpr := rfl
@[simp] theorem State.setPhysicalMemory_eip (s : State) (a : Word) (l : List Byte) : (s.setPhysicalMemory a l).eip = s.eip := rfl
@[simp] theorem State.setPhysicalMemory_flags (s : State) (a : Word) (l : List Byte) : (s.setPhysicalMemory a l).flags = s.flags := rfl
@[simp] theorem State.setPhysicalMemory_eflagsOther (s : State) (a : Word) (l : List Byte) : (s.setPhysicalMemory a l).eflagsOther = s.eflagsOther := rfl
@[simp] theorem State.setPhysicalMemory_mode (s : State) (a : Word) (l : List Byte) : (s.setPhysicalMemory a l).mode = s.mode := rfl
@[simp] theorem State.setPhysicalMemory_codeSize32 (s : State) (a : Word) (l : List Byte) : (s.setPhysicalMemory a l).codeSize32 = s.codeSize32 := rfl
@[simp] theorem State.setPhysicalMemory_stackSize32 (s : State) (a : Word) (l : List Byte) : (s.setPhysicalMemory a l).stackSize32 = s.stackSize32 := rfl
@[simp] theorem State.setPhysicalMemory_cpl (s : State) (a : Word) (l : List Byte) : (s.setPhysicalMemory a l).cpl = s.cpl := rfl
@[simp] theorem State.setPhysicalMemory_seg (s : State) (a : Word) (l : List Byte) : (s.setPhysicalMemory a l).seg = s.seg := rfl
@[simp] theorem State.setPhysicalMemory_mem (s : State) (a : Word) (l : List Byte) : (s.setPhysicalMemory a l).mem = Memory.writeBytes s.mem a l := rfl
@[simp] theorem State.setPhysicalMemory_refused (s : State) (a : Word) (l : List Byte) : (s.setPhysicalMemory a l).refused = s.refused := rfl
@[simp] theorem State.setPhysicalMemory_params (s : State) (a : Word) (l : List Byte) : (s.setPhysicalMemory a l).params = s.params := rfl
@[simp] theorem State.setPhysicalMemory_block (s : State) (a : Word) (l : List Byte) : (s.setPhysicalMemory a l).block = s.block := rfl
@[simp] theorem State.setPhysicalMemory_lastTag (s : State) (a : Word) (l : List Byte) : (s.setPhysicalMemory a l).lastTag = s.lastTag := rfl
@[simp] theorem State.setPhysicalMemory_report (s : State) (a : Word) (l : List Byte) : (s.setPhysicalMemory a l).report = s.report := rfl
@[simp] theorem State.setPhysicalMemory_draws (s : State) (a : Word) (l : List Byte) : (s.setPhysicalMemory a l).draws = s.draws := rfl

/-! ### `State.advance` -/

@[simp] theorem State.advance_gpr (s t : State) (i : Instr) : (s.advance i t).gpr = t.gpr := rfl
@[simp] theorem State.advance_eip (s t : State) (i : Instr) : (s.advance i t).eip = s.nextEip i.len := rfl
@[simp] theorem State.advance_flags (s t : State) (i : Instr) : (s.advance i t).flags = t.flags := rfl
@[simp] theorem State.advance_eflagsOther (s t : State) (i : Instr) : (s.advance i t).eflagsOther = t.eflagsOther := rfl
@[simp] theorem State.advance_mode (s t : State) (i : Instr) : (s.advance i t).mode = t.mode := rfl
@[simp] theorem State.advance_codeSize32 (s t : State) (i : Instr) : (s.advance i t).codeSize32 = t.codeSize32 := rfl
@[simp] theorem State.advance_stackSize32 (s t : State) (i : Instr) : (s.advance i t).stackSize32 = t.stackSize32 := rfl
@[simp] theorem State.advance_cpl (s t : State) (i : Instr) : (s.advance i t).cpl = t.cpl := rfl
@[simp] theorem State.advance_seg (s t : State) (i : Instr) : (s.advance i t).seg = t.seg := rfl
@[simp] theorem State.advance_mem (s t : State) (i : Instr) : (s.advance i t).mem = t.mem := rfl
@[simp] theorem State.advance_refused (s t : State) (i : Instr) : (s.advance i t).refused = t.refused := rfl
@[simp] theorem State.advance_params (s t : State) (i : Instr) : (s.advance i t).params = t.params := rfl
@[simp] theorem State.advance_block (s t : State) (i : Instr) : (s.advance i t).block = t.block := rfl
@[simp] theorem State.advance_lastTag (s t : State) (i : Instr) : (s.advance i t).lastTag = .noBranch := rfl
@[simp] theorem State.advance_report (s t : State) (i : Instr) : (s.advance i t).report = t.report := rfl
@[simp] theorem State.advance_draws (s t : State) (i : Instr) : (s.advance i t).draws = t.draws := rfl

/-! ### `State.withOperand` -/

@[simp] theorem State.withOperand_eip (s : State) (z : Size) (ref : Ref) (v : BitVec z.bits) :
    (s.withOperand z ref v).eip = s.eip := by cases ref <;> rfl
@[simp] theorem State.withOperand_flags (s : State) (z : Size) (ref : Ref) (v : BitVec z.bits) :
    (s.withOperand z ref v).flags = s.flags := by cases ref <;> rfl
@[simp] theorem State.withOperand_eflagsOther (s : State) (z : Size) (ref : Ref) (v : BitVec z.bits) :
    (s.withOperand z ref v).eflagsOther = s.eflagsOther := by cases ref <;> rfl
@[simp] theorem State.withOperand_mode (s : State) (z : Size) (ref : Ref) (v : BitVec z.bits) :
    (s.withOperand z ref v).mode = s.mode := by cases ref <;> rfl
@[simp] theorem State.withOperand_codeSize32 (s : State) (z : Size) (ref : Ref) (v : BitVec z.bits) :
    (s.withOperand z ref v).codeSize32 = s.codeSize32 := by cases ref <;> rfl
@[simp] theorem State.withOperand_stackSize32 (s : State) (z : Size) (ref : Ref) (v : BitVec z.bits) :
    (s.withOperand z ref v).stackSize32 = s.stackSize32 := by cases ref <;> rfl
@[simp] theorem State.withOperand_cpl (s : State) (z : Size) (ref : Ref) (v : BitVec z.bits) :
    (s.withOperand z ref v).cpl = s.cpl := by cases ref <;> rfl
@[simp] theorem State.withOperand_seg (s : State) (z : Size) (ref : Ref) (v : BitVec z.bits) :
    (s.withOperand z ref v).seg = s.seg := by cases ref <;> rfl
@[simp] theorem State.withOperand_refused (s : State) (z : Size) (ref : Ref) (v : BitVec z.bits) :
    (s.withOperand z ref v).refused = s.refused := by cases ref <;> rfl
@[simp] theorem State.withOperand_params (s : State) (z : Size) (ref : Ref) (v : BitVec z.bits) :
    (s.withOperand z ref v).params = s.params := by cases ref <;> rfl
@[simp] theorem State.withOperand_block (s : State) (z : Size) (ref : Ref) (v : BitVec z.bits) :
    (s.withOperand z ref v).block = s.block := by cases ref <;> rfl
@[simp] theorem State.withOperand_lastTag (s : State) (z : Size) (ref : Ref) (v : BitVec z.bits) :
    (s.withOperand z ref v).lastTag = s.lastTag := by cases ref <;> rfl
@[simp] theorem State.withOperand_report (s : State) (z : Size) (ref : Ref) (v : BitVec z.bits) :
    (s.withOperand z ref v).report = s.report := by cases ref <;> rfl
@[simp] theorem State.withOperand_draws (s : State) (z : Size) (ref : Ref) (v : BitVec z.bits) :
    (s.withOperand z ref v).draws = s.draws := by cases ref <;> rfl
@[simp] theorem State.withOperand_reg_gpr (s : State) (z : Size) (r : Reg) (v : BitVec z.bits) :
    (s.withOperand z (.reg r) v).gpr = s.gpr.setView z r v := rfl
@[simp] theorem State.withOperand_reg_mem (s : State) (z : Size) (r : Reg) (v : BitVec z.bits) :
    (s.withOperand z (.reg r) v).mem = s.mem := rfl
@[simp] theorem State.withOperand_mem_gpr (s : State) (z : Size) (g : SegReg) (ea : EA) (v : BitVec z.bits) :
    (s.withOperand z (.mem g ea) v).gpr = s.gpr := rfl
@[simp] theorem State.withOperand_mem_mem (s : State) (z : Size) (g : SegReg) (ea : EA) (v : BitVec z.bits) :
    (s.withOperand z (.mem g ea) v).mem =
      Memory.writeBytes s.mem (s.lin g (ea.off s.gpr)) (leBytes z.bytes v.toNat) := rfl

/-! ### `Effect` -/

@[simp] theorem Effect.start_gpr (s : State) : (Effect.start s).gpr = s.gpr := rfl
@[simp] theorem Effect.start_flags (s : State) : (Effect.start s).flags = s.flags := rfl
@[simp] theorem Effect.start_draws (s : State) : (Effect.start s).draws = s.draws := rfl
@[simp] theorem Effect.start_store (s : State) : (Effect.start s).store = none := rfl
@[simp] theorem Effect.start_tag (s : State) : (Effect.start s).tag = .noBranch := rfl
@[simp] theorem State.setSp_flags (s : State) (t : Word) (e : Effect) : (s.setSp t e).flags = e.flags := rfl
@[simp] theorem State.setSp_draws (s : State) (t : Word) (e : Effect) : (s.setSp t e).draws = e.draws := rfl
@[simp] theorem State.setSp_store (s : State) (t : Word) (e : Effect) : (s.setSp t e).store = e.store := rfl
@[simp] theorem State.setSp_tag (s : State) (t : Word) (e : Effect) : (s.setSp t e).tag = e.tag := rfl
@[simp] theorem Effect.mem_of_none (e : Effect) (m : Memory) (h : e.store = none) : e.mem m = m := by
  simp [Effect.mem, h]
@[simp] theorem Effect.hitsBlock_of_none (e : Effect) (s : State) (h : e.store = none) : e.hitsBlock s = false := by
  simp [Effect.hitsBlock, h]

/-! ### `settle` -/

@[simp] theorem settle_gpr (b : RunningBlock) (u : InsnUnit) (l : List InsnUnit) (t : State) :
    (settle b u l t).gpr = t.gpr := by unfold settle; split <;> rfl
@[simp] theorem settle_eip (b : RunningBlock) (u : InsnUnit) (l : List InsnUnit) (t : State) :
    (settle b u l t).eip = t.eip := by unfold settle; split <;> rfl
@[simp] theorem settle_flags (b : RunningBlock) (u : InsnUnit) (l : List InsnUnit) (t : State) :
    (settle b u l t).flags = t.flags := by unfold settle; split <;> rfl
@[simp] theorem settle_eflagsOther (b : RunningBlock) (u : InsnUnit) (l : List InsnUnit) (t : State) :
    (settle b u l t).eflagsOther = t.eflagsOther := by unfold settle; split <;> rfl
@[simp] theorem settle_mode (b : RunningBlock) (u : InsnUnit) (l : List InsnUnit) (t : State) :
    (settle b u l t).mode = t.mode := by unfold settle; split <;> rfl
@[simp] theorem settle_codeSize32 (b : RunningBlock) (u : InsnUnit) (l : List InsnUnit) (t : State) :
    (settle b u l t).codeSize32 = t.codeSize32 := by unfold settle; split <;> rfl
@[simp] theorem settle_stackSize32 (b : RunningBlock) (u : InsnUnit) (l : List InsnUnit) (t : State) :
    (settle b u l t).stackSize32 = t.stackSize32 := by unfold settle; split <;> rfl
@[simp] theorem settle_cpl (b : RunningBlock) (u : InsnUnit) (l : List InsnUnit) (t : State) :
    (settle b u l t).cpl = t.cpl := by unfold settle; split <;> rfl
@[simp] theorem settle_seg (b : RunningBlock) (u : InsnUnit) (l : List InsnUnit) (t : State) :
    (settle b u l t).seg = t.seg := by unfold settle; split <;> rfl
@[simp] theorem settle_mem (b : RunningBlock) (u : InsnUnit) (l : List InsnUnit) (t : State) :
    (settle b u l t).mem = t.mem := by unfold settle; split <;> rfl
@[simp] theorem settle_refused (b : RunningBlock) (u : InsnUnit) (l : List InsnUnit) (t : State) :
    (settle b u l t).refused = t.refused := by unfold settle; split <;> rfl
@[simp] theorem settle_params (b : RunningBlock) (u : InsnUnit) (l : List InsnUnit) (t : State) :
    (settle b u l t).params = t.params := by unfold settle; split <;> rfl
@[simp] theorem settle_lastTag (b : RunningBlock) (u : InsnUnit) (l : List InsnUnit) (t : State) :
    (settle b u l t).lastTag = t.lastTag := by unfold settle; split <;> rfl
@[simp] theorem settle_draws (b : RunningBlock) (u : InsnUnit) (l : List InsnUnit) (t : State) :
    (settle b u l t).draws = t.draws := by unfold settle; split <;> rfl

/-! ### `State.setState` -/

@[simp] theorem State.setState_mem (s : State) (a : List Word) : (s.setState a).mem = s.mem := by
  unfold State.setState; split <;> rfl
@[simp] theorem State.setState_params (s : State) (a : List Word) : (s.setState a).params = s.params := by
  unfold State.setState; split <;> rfl
@[simp] theorem State.setState_lastTag (s : State) (a : List Word) : (s.setState a).lastTag = s.lastTag := by
  unfold State.setState; split <;> rfl
@[simp] theorem State.setState_draws (s : State) (a : List Word) : (s.setState a).draws = s.draws := by
  unfold State.setState; split <;> rfl

end Sys2Proof.Machine
end

