-- ==== Sys2Proof/Laws/Ops.lean ====
section
/-! SUPPORT. Laws/Ops: what each shared operation can do, said once. A meaning is `runUnit` of a body; a body
reads through `readRef`, writes through `writeRef`, `push`, `setSp`. The lemmas say when each answers, and
what; later proofs cite them and do not unfold the operation. -/

namespace Sys2Proof.Machine

/-! ### The oracle (20_memory.md R74 to R77) -/

theorem State.check_ok_iff (s : State) (k : AccessKind) (g : SegReg) (off : Word) (n : Nat) :
    s.check k g off n = .ok () ↔ s.access k g off n = .ok := by
  unfold State.check
  cases s.access k g off n <;> simp

theorem State.check_of_ok {s : State} {k : AccessKind} {g : SegReg} {off : Word} {n : Nat}
    (h : s.access k g off n = .ok) : s.check k g off n = .ok () := (s.check_ok_iff k g off n).mpr h

theorem State.check_of_fault {s : State} {k : AccessKind} {g : SegReg} {off : Word} {n : Nat} {v : Nat}
    {c : Option Word} (h : s.access k g off n = .fault v c) : s.check k g off n = .error (.trap v c) := by
  simp [State.check, h]

theorem State.check_of_unmodelled {s : State} {k : AccessKind} {g : SegReg} {off : Word} {n : Nat}
    (h : s.access k g off n = .unmodelled) : s.check k g off n = .error (.refuse .unmodelledMemory) := by
  simp [State.check, h]

/-- The check of a target asks the oracle about one byte of CS (46_control.md R333). -/
theorem State.checkTarget_ok_iff (s : State) (t : Word) : s.checkTarget t = .ok () ↔ s.canBranch t = true := by
  simp [State.checkTarget, State.canBranch, State.check_ok_iff]

/-- A stop is a trap or the refusal of an unmodelled range: no check refuses otherwise. -/
theorem State.check_error {s : State} {k : AccessKind} {g : SegReg} {off : Word} {n : Nat} {e : Stop}
    (h : s.check k g off n = .error e) : (∃ v c, e = .trap v c) ∨ e = .refuse .unmodelledMemory := by
  unfold State.check at h
  cases ha : s.access k g off n <;> simp [ha] at h
  · exact .inl ⟨_, _, h.symm⟩
  · exact .inr h.symm

/-! ### Operands (10_state.md R55) -/

/-- A readable operand reads as what it holds. -/
theorem State.readRef_of_readable {s : State} {z : Size} {ref : Ref} (h : s.readable z ref = true) :
    s.readRef z ref = .ok (s.operand z ref) := by
  cases ref with
  | reg r => rfl
  | mem g ea =>
    simp only [State.readable, beq_iff_eq] at h
    simp [State.readRef, State.memRead, State.check_of_ok h, State.operand, bind, Except.bind]

/-- Only a readable operand is read, and it reads as what it holds. -/
theorem State.readRef_ok {s : State} {z : Size} {ref : Ref} {v : BitVec z.bits} (h : s.readRef z ref = .ok v) :
    s.readable z ref = true ∧ v = s.operand z ref := by
  cases ref with
  | reg r => exact ⟨rfl, (Except.ok.inj h).symm⟩
  | mem g ea =>
    simp only [State.readRef, State.memRead, bind, Except.bind] at h
    cases hc : s.check .read g (ea.off s.gpr) z.bytes with
    | error e => simp [hc] at h
    | ok u =>
      simp only [hc] at h
      exact ⟨by simpa [State.readable] using (s.check_ok_iff _ _ _ _).mp hc, (Except.ok.inj h).symm⟩

@[simp] theorem State.readRef_reg (s : State) (z : Size) (r : Reg) :
    s.readRef z (.reg r) = .ok (s.gpr.view z r) := rfl

@[simp] theorem State.operand_reg (s : State) (z : Size) (r : Reg) : s.operand z (.reg r) = s.gpr.view z r := rfl

@[simp] theorem State.readable_reg (s : State) (z : Size) (r : Reg) : s.readable z (.reg r) = true := rfl

@[simp] theorem State.writable_reg (s : State) (z : Size) (r : Reg) : s.writable z (.reg r) = true := rfl

/-- What a write stages (10_state.md R55). -/
def Effect.put (s : State) (z : Size) (ref : Ref) (v : BitVec z.bits) (e : Effect) : Effect :=
  match ref with
  | .reg r => { e with gpr := e.gpr.setView z r v }
  | .mem g ea => { e with store := some ⟨s.lin g (ea.off s.gpr), leBytes z.bytes v.toNat⟩ }

/-- A writable operand is written. -/
theorem State.writeRef_of_writable {s : State} {z : Size} {ref : Ref} (v : BitVec z.bits) (e : Effect)
    (h : s.writable z ref = true) : s.writeRef z ref v e = .ok (Effect.put s z ref v e) := by
  cases ref with
  | reg r => rfl
  | mem g ea =>
    simp only [State.writable, Bool.and_eq_true, beq_iff_eq] at h
    simp [State.writeRef, State.memWrite, State.check_of_ok h.1, Effect.put, bind, Except.bind]

/-- What a write that answers stages. -/
theorem State.writeRef_ok {s : State} {z : Size} {ref : Ref} {v : BitVec z.bits} {e e' : Effect}
    (h : s.writeRef z ref v e = .ok e') : e' = Effect.put s z ref v e := by
  cases ref with
  | reg r => exact (Except.ok.inj h).symm
  | mem g ea =>
    simp only [State.writeRef, State.memWrite, bind, Except.bind] at h
    cases hc : s.check .write g (ea.off s.gpr) z.bytes with
    | error e => simp [hc] at h
    | ok u => simp only [hc] at h; exact (Except.ok.inj h).symm

/-- A writable operand is none of the running block's bytes. -/
theorem Effect.put_hitsBlock {s : State} {z : Size} {ref : Ref} (v : BitVec z.bits) {e : Effect}
    (h : s.writable z ref = true) (he : e.store = none) : (Effect.put s z ref v e).hitsBlock s = false := by
  cases ref with
  | reg r => simp [Effect.put, Effect.hitsBlock, he]
  | mem g ea =>
    simp only [State.writable, Bool.and_eq_true, Bool.not_eq_true'] at h
    simp [Effect.put, Effect.hitsBlock, h.2]

@[simp] theorem Effect.put_flags (s : State) (z : Size) (ref : Ref) (v : BitVec z.bits) (e : Effect) :
    (Effect.put s z ref v e).flags = e.flags := by cases ref <;> rfl
@[simp] theorem Effect.put_draws (s : State) (z : Size) (ref : Ref) (v : BitVec z.bits) (e : Effect) :
    (Effect.put s z ref v e).draws = e.draws := by cases ref <;> rfl
@[simp] theorem Effect.put_tag (s : State) (z : Size) (ref : Ref) (v : BitVec z.bits) (e : Effect) :
    (Effect.put s z ref v e).tag = e.tag := by cases ref <;> rfl

/-! ### The unit (40_unit_protocol.md R165, R166) -/

/-- A body that completes, its store clear of the running block, commits. -/
theorem runUnit_of_ok {len : Nat} {body : Except Stop Effect} {s : State} {e : Effect} (h : body = .ok e)
    (hb : e.hitsBlock s = false) : runUnit len body s = .next (s.commit len e) := by
  simp [runUnit, h, hb]

/-- A body that raises a fault is a trap: nothing is committed. -/
theorem runUnit_of_trap {len : Nat} {body : Except Stop Effect} {s : State} {v : Nat} {c : Option Word}
    (h : body = .error (.trap v c)) : runUnit len body s = .next (s.takeTrap v c) := by
  simp [runUnit, h]

/-- Everything a unit can do when it answers a next state: trap, or commit what its body staged. -/
theorem runUnit_next {len : Nat} {body : Except Stop Effect} {s t : State} (h : runUnit len body s = .next t) :
    (∃ v c, body = .error (.trap v c) ∧ t = s.takeTrap v c) ∨
      ∃ e, body = .ok e ∧ e.hitsBlock s = false ∧ t = s.commit len e := by
  unfold runUnit at h
  split at h
  · exact .inl ⟨_, _, rfl, (Host.Outcome.next.inj h).symm⟩
  · exact absurd h (by simp)
  · split at h
    · exact absurd h (by simp)
    · next hb => exact .inr ⟨_, rfl, by simpa using hb, (Host.Outcome.next.inj h).symm⟩

/-- A unit never faults. -/
theorem runUnit_ne_fault (len : Nat) (body : Except Stop Effect) (s : State) (f : Fault) :
    runUnit len body s ≠ .fault f := by
  unfold runUnit
  split <;> (try split) <;> simp

/-- A unit that ends by writing an operand: the state with the operand written, moved past the unit. -/
theorem runUnit_write {i : Instr} {s : State} {z : Size} {ref : Ref} (v : BitVec z.bits) (f : Flags) (d : Nat)
    (h : s.writable z ref = true) :
    runUnit i.len (s.writeRef z ref v { Effect.start s with flags := f, draws := d }) s =
      .next (s.advance i { s.withOperand z ref v with flags := f, draws := d }) := by
  rw [runUnit_of_ok (State.writeRef_of_writable v _ h) (Effect.put_hitsBlock v h rfl)]
  cases ref <;> rfl

/-- A unit that stores nothing: the registers, flags and draws it leaves, moved past the unit. -/
theorem runUnit_regs (i : Instr) (s : State) (g : Gprs) (f : Flags) (d : Nat) :
    runUnit i.len (.ok { Effect.start s with gpr := g, flags := f, draws := d }) s =
      .next (s.advance i { s with gpr := g, flags := f, draws := d }) := rfl

/-! ### The stack (45_data_move.md R318) -/

theorem State.popRead_of_canPop {s : State} {z : Size} (h : s.canPop z = true) : s.popRead z = .ok (s.top z) := by
  simp only [State.canPop, beq_iff_eq] at h
  simp [State.popRead, State.memRead, State.check_of_ok h, State.top, bind, Except.bind]

theorem State.push_of_canPush {s : State} {z : Size} (v : BitVec z.bits) (e : Effect) (h : s.canPush z = true) :
    s.push z v e = .ok (s.setSp (s.pushSp z.bytes)
      { e with store := some ⟨s.lin .ss (s.pushSp z.bytes), leBytes z.bytes v.toNat⟩ }) := by
  simp only [State.canPush, Bool.and_eq_true, beq_iff_eq] at h
  simp [State.push, State.memWrite, State.check_of_ok h.1, bind, Except.bind]

/-- The stack slot of a push that may happen is none of the running block's bytes. -/
theorem State.push_hitsBlock {s : State} {z : Size} (v : BitVec z.bits) (e : Effect) (t : Word)
    (h : s.canPush z = true) :
    (s.setSp t { e with store := some ⟨s.lin .ss (s.pushSp z.bytes), leBytes z.bytes v.toNat⟩ }).hitsBlock s =
      false := by
  simp only [State.canPush, Bool.and_eq_true, Bool.not_eq_true'] at h
  simp [Effect.hitsBlock, h.2]

end Sys2Proof.Machine
end

