-- ==== Sys2Proof/Laws/Bodies.lean ====
section
/-! SUPPORT. Laws/Bodies: one lemma pair per shared body. `<body>_ok` inverts: what the body staged when it
answers. `<body>_next` runs forward: the next state of a unit with that body when its operands may be read
and written. -/

namespace Sys2Proof.Machine

/-! ### Inversion -/

theorem aluBody_ok {op : AluOp} {z : Size} {dst : Ref} {src : Except Stop (BitVec z.bits)} {s : State} {e : Effect}
    (h : aluBody op z dst src s = .ok e) : ∃ b, src = .ok b ∧ s.readable z dst = true ∧
      e = Effect.put s z dst (op z.bits s.flags (s.operand z dst) b).1
        { Effect.start s with flags := (op z.bits s.flags (s.operand z dst) b).2 } := by
  simp only [aluBody, bind, Except.bind] at h
  cases ha : s.readRef z dst with
  | error x => simp [ha] at h
  | ok a =>
    obtain ⟨hr, rfl⟩ := State.readRef_ok ha
    cases src with
    | error x => simp [ha] at h
    | ok b =>
      simp only [ha] at h
      exact ⟨b, rfl, hr, State.writeRef_ok h⟩

theorem compareBody_ok {op : AluOp} {z : Size} {a : Ref} {src : Except Stop (BitVec z.bits)} {s : State}
    {e : Effect} (h : compareBody op z a src s = .ok e) : ∃ b, src = .ok b ∧ s.readable z a = true ∧
      e = { Effect.start s with flags := (op z.bits s.flags (s.operand z a) b).2 } := by
  simp only [compareBody, bind, Except.bind] at h
  cases ha : s.readRef z a with
  | error x => simp [ha] at h
  | ok v =>
    obtain ⟨hr, rfl⟩ := State.readRef_ok ha
    cases src with
    | error x => simp [ha] at h
    | ok b =>
      simp only [ha] at h
      exact ⟨b, rfl, hr, (Except.ok.inj h).symm⟩

theorem unaryBody_ok {op : UnaryOp} {z : Size} {dst : Ref} {s : State} {e : Effect}
    (h : unaryBody op z dst s = .ok e) : s.readable z dst = true ∧
      e = Effect.put s z dst (op z.bits s.flags (s.operand z dst)).1
        { Effect.start s with flags := (op z.bits s.flags (s.operand z dst)).2 } := by
  simp only [unaryBody, bind, Except.bind] at h
  cases ha : s.readRef z dst with
  | error x => simp [ha] at h
  | ok a =>
    obtain ⟨hr, rfl⟩ := State.readRef_ok ha
    simp only [ha] at h
    exact ⟨hr, State.writeRef_ok h⟩

theorem moveBody_ok {z : Size} {dst : Ref} {src : Except Stop (BitVec z.bits)} {s : State} {e : Effect}
    (h : moveBody z dst src s = .ok e) : ∃ v, src = .ok v ∧ e = Effect.put s z dst v (Effect.start s) := by
  cases src with
  | error x => simp [moveBody, bind, Except.bind] at h
  | ok v => exact ⟨v, rfl, State.writeRef_ok h⟩

theorem shiftBody_ok {op : ShiftOp} {z : Size} {dst : Ref} {c : Nat} {s : State} {e : Effect}
    (h : shiftBody op z dst c s = .ok e) : s.readable z dst = true ∧
      ((op s.params z.bits s.flags s.draws (s.operand z dst) c = none ∧ e = Effect.start s) ∨
        ∃ o, op s.params z.bits s.flags s.draws (s.operand z dst) c = some o ∧
          e = Effect.put s z dst o.value { Effect.start s with flags := o.flags, draws := o.draws }) := by
  simp only [shiftBody, bind, Except.bind] at h
  cases ha : s.readRef z dst with
  | error x => simp [ha] at h
  | ok a =>
    obtain ⟨hr, rfl⟩ := State.readRef_ok ha
    simp only [ha] at h
    refine ⟨hr, ?_⟩
    cases ho : op s.params z.bits s.flags s.draws (s.operand z dst) c with
    | none => simp only [ho] at h; exact .inl ⟨rfl, (Except.ok.inj h).symm⟩
    | some o => simp only [ho] at h; exact .inr ⟨o, rfl, State.writeRef_ok h⟩

theorem xchgBody_ok {z : Size} {op1 : Ref} {op2 : Reg} {s : State} {e : Effect}
    (h : xchgBody z op1 op2 s = .ok e) : s.readable z op1 = true ∧
      e = Effect.put s z (.reg op2) (s.operand z op1)
        (Effect.put s z op1 (s.gpr.view z op2) (Effect.start s)) := by
  simp only [xchgBody, bind, Except.bind, State.readRef_reg] at h
  cases ha : s.readRef z op1 with
  | error x => simp [ha] at h
  | ok a =>
    obtain ⟨hr, rfl⟩ := State.readRef_ok ha
    simp only [ha] at h
    cases hw : s.writeRef z op1 (s.gpr.view z op2) (Effect.start s) with
    | error x => simp [hw] at h
    | ok e1 =>
      simp only [hw] at h
      exact ⟨hr, (State.writeRef_ok h).trans (by rw [State.writeRef_ok hw])⟩

/-- A unit that only reads one operand and then writes registers and flags. -/
theorem readThen_ok {z : Size} {src : Ref} {s : State} {k : BitVec z.bits → Effect} {e : Effect}
    (h : (s.readRef z src).bind (fun v => .ok (k v)) = .ok e) : s.readable z src = true ∧ e = k (s.operand z src) := by
  cases ha : s.readRef z src with
  | error x => simp [ha, Except.bind] at h
  | ok v =>
    obtain ⟨hr, rfl⟩ := State.readRef_ok ha
    simp only [ha, Except.bind] at h
    exact ⟨hr, (Except.ok.inj h).symm⟩

theorem push_ok {s : State} {z : Size} {v : BitVec z.bits} {e e' : Effect} (h : s.push z v e = .ok e') :
    e' = s.setSp (s.pushSp z.bytes)
      { e with store := some ⟨s.lin .ss (s.pushSp z.bytes), leBytes z.bytes v.toNat⟩ } := by
  simp only [State.push, State.memWrite, bind, Except.bind] at h
  cases hc : s.check .write .ss (s.pushSp z.bytes) z.bytes with
  | error x => simp [hc] at h
  | ok u => simp only [hc] at h; exact (Except.ok.inj h).symm

theorem popRead_ok {s : State} {z : Size} {v : BitVec z.bits} (h : s.popRead z = .ok v) :
    s.canPop z = true ∧ v = s.top z := by
  simp only [State.popRead, State.memRead, bind, Except.bind] at h
  cases hc : s.check .read .ss s.sp z.bytes with
  | error x => simp [hc] at h
  | ok u =>
    simp only [hc] at h
    exact ⟨by simpa [State.canPop] using (s.check_ok_iff _ _ _ _).mp hc, (Except.ok.inj h).symm⟩

theorem pushBody_ok {z : Size} {src : Except Stop (BitVec z.bits)} {s : State} {e : Effect}
    (h : pushBody z src s = .ok e) : ∃ v, src = .ok v ∧ e = s.setSp (s.pushSp z.bytes)
      { Effect.start s with store := some ⟨s.lin .ss (s.pushSp z.bytes), leBytes z.bytes v.toNat⟩ } := by
  cases src with
  | error x => simp [pushBody, bind, Except.bind] at h
  | ok v => exact ⟨v, rfl, push_ok h⟩

theorem popBody_ok {z : Size} {dst : Reg} {s : State} {e : Effect} (h : popBody z dst s = .ok e) :
    s.canPop z = true ∧
      e = Effect.put s z (.reg dst) (s.top z) (s.setSp (s.popSp z.bytes 0) (Effect.start s)) := by
  simp only [popBody, bind, Except.bind] at h
  cases ha : s.popRead z with
  | error x => simp [ha] at h
  | ok v =>
    obtain ⟨hr, rfl⟩ := popRead_ok ha
    simp only [ha] at h
    exact ⟨hr, State.writeRef_ok h⟩

theorem jccBody_ok {cc : Cond} {t : Word} {s : State} {e : Effect} (h : jccBody cc t s = .ok e) :
    (Cond.holds s.flags cc = true → s.canBranch t = true) ∧
      e = { Effect.start s with tag := .cond (Cond.holds s.flags cc) t } := by
  unfold jccBody at h
  split at h
  · next hc =>
    simp only [bind, Except.bind] at h
    cases ht : s.checkTarget t with
    | error x => simp [ht] at h
    | ok u =>
      simp only [ht] at h
      exact ⟨fun _ => (s.checkTarget_ok_iff t).mp ht, by rw [hc]; exact (Except.ok.inj h).symm⟩
  · next hc =>
    exact ⟨fun h' => absurd h' hc, by rw [Bool.eq_false_iff.mpr hc]; exact (Except.ok.inj h).symm⟩

theorem jmpBody_ok {t : Word} {s : State} {e : Effect} (h : jmpBody t s = .ok e) :
    s.canBranch t = true ∧ e = { Effect.start s with tag := .jump t } := by
  simp only [jmpBody, bind, Except.bind] at h
  cases ht : s.checkTarget t with
  | error x => simp [ht] at h
  | ok u =>
    simp only [ht] at h
    exact ⟨(s.checkTarget_ok_iff t).mp ht, (Except.ok.inj h).symm⟩

theorem jmpRefBody_ok {p : Prefixes} {src : Ref} {s : State} {e : Effect} (h : jmpRefBody p src s = .ok e) :
    s.readable p.opSize.size src = true ∧ s.canBranch (indirectTarget p (s.operand p.opSize.size src)) = true ∧
      e = { Effect.start s with tag := .jump (indirectTarget p (s.operand p.opSize.size src)) } := by
  simp only [jmpRefBody, bind, Except.bind] at h
  cases ha : s.readRef p.opSize.size src with
  | error x => simp [ha] at h
  | ok v =>
    obtain ⟨hr, rfl⟩ := State.readRef_ok ha
    simp only [ha] at h
    exact ⟨hr, jmpBody_ok h⟩

theorem callBody_ok {p : Prefixes} {len : Nat} {t : Word} {s : State} {e : Effect}
    (h : callBody p len t s = .ok e) : s.canBranch t = true ∧
      e = { s.setSp (s.pushSp p.opSize.size.bytes) { Effect.start s with
              store := some ⟨s.lin .ss (s.pushSp p.opSize.size.bytes),
                leBytes p.opSize.size.bytes ((s.nextEip len).setWidth p.opSize.size.bits).toNat⟩ } with
            tag := .jump t } := by
  simp only [callBody, bind, Except.bind] at h
  cases ht : s.checkTarget t with
  | error x => simp [ht] at h
  | ok u =>
    simp only [ht] at h
    cases hp : s.push p.opSize.size ((s.nextEip len).setWidth p.opSize.size.bits) (Effect.start s) with
    | error x => simp [hp] at h
    | ok e1 =>
      simp only [hp] at h
      exact ⟨(s.checkTarget_ok_iff t).mp ht, by rw [← push_ok hp]; exact (Except.ok.inj h).symm⟩

theorem callRefBody_ok {p : Prefixes} {len : Nat} {src : Ref} {s : State} {e : Effect}
    (h : callRefBody p len src s = .ok e) : s.readable p.opSize.size src = true ∧
      callBody p len (indirectTarget p (s.operand p.opSize.size src)) s = .ok e := by
  simp only [callRefBody, bind, Except.bind] at h
  cases ha : s.readRef p.opSize.size src with
  | error x => simp [ha] at h
  | ok v =>
    obtain ⟨hr, rfl⟩ := State.readRef_ok ha
    simp only [ha] at h
    exact ⟨hr, h⟩

theorem retBody_ok {p : Prefixes} {k : Nat} {s : State} {e : Effect} (h : retBody p k s = .ok e) :
    s.canPop p.opSize.size = true ∧ s.canBranch (indirectTarget p (s.top p.opSize.size)) = true ∧
      e = { s.setSp (s.popSp p.opSize.size.bytes k) (Effect.start s) with
            tag := .jump (indirectTarget p (s.top p.opSize.size)) } := by
  simp only [retBody, bind, Except.bind] at h
  cases ha : s.popRead p.opSize.size with
  | error x => simp [ha] at h
  | ok v =>
    obtain ⟨hr, rfl⟩ := popRead_ok ha
    simp only [ha] at h
    cases ht : s.checkTarget (indirectTarget p (s.top p.opSize.size)) with
    | error x => simp [ht] at h
    | ok u =>
      simp only [ht] at h
      exact ⟨hr, (s.checkTarget_ok_iff _).mp ht, (Except.ok.inj h).symm⟩

theorem hltBody_ok {s : State} {e : Effect} (h : hltBody s = .ok e) :
    ¬(s.mode = .v86 ∨ (s.mode = .prot ∧ s.cpl ≠ 0)) ∧ e = { Effect.start s with tag := .halt } := by
  unfold hltBody at h
  split at h
  · exact absurd h (by simp)
  · next hc => exact ⟨hc, (Except.ok.inj h).symm⟩

theorem divBody_ok {z : Size} {src : Ref} {s : State} {e : Effect} (h : divBody z src s = .ok e) :
    s.readable z src = true ∧ (s.operand z src).toNat ≠ 0 ∧
      s.gpr.dividend z / (s.operand z src).toNat < 2 ^ z.bits ∧
      e = { Effect.start s with
        gpr := s.gpr.setQuotRem z (s.gpr.dividend z / (s.operand z src).toNat : Nat)
          (s.gpr.dividend z % (s.operand z src).toNat : Nat) } := by
  simp only [divBody, bind, Except.bind] at h
  cases ha : s.readRef z src with
  | error x => simp [ha] at h
  | ok v =>
    obtain ⟨hr, rfl⟩ := State.readRef_ok ha
    simp only [ha] at h
    split at h
    · exact absurd h (by simp)
    · next h0 =>
      split at h
      · exact absurd h (by simp)
      · next hq => exact ⟨hr, h0, Nat.lt_of_not_le hq, (Except.ok.inj h).symm⟩

theorem idivBody_ok {z : Size} {src : Ref} {s : State} {e : Effect} (h : idivBody z src s = .ok e) :
    s.readable z src = true ∧ (s.operand z src).toInt ≠ 0 ∧
      e = { Effect.start s with
        gpr := s.gpr.setQuotRem z (Int.tdiv (s.gpr.signedDividend z) (s.operand z src).toInt)
          (s.gpr.signedDividend z -
            Int.tdiv (s.gpr.signedDividend z) (s.operand z src).toInt * (s.operand z src).toInt) } := by
  simp only [idivBody, bind, Except.bind] at h
  cases ha : s.readRef z src with
  | error x => simp [ha] at h
  | ok v =>
    obtain ⟨hr, rfl⟩ := State.readRef_ok ha
    simp only [ha] at h
    split at h
    · exact absurd h (by simp)
    · next h0 =>
      split at h
      · exact absurd h (by simp)
      · exact ⟨hr, h0, (Except.ok.inj h).symm⟩

/-! ### Forward -/

theorem aluBody_next {op : AluOp} {z : Size} {dst : Ref} {src : Except Stop (BitVec z.bits)} {s : State}
    {b : BitVec z.bits} (i : Instr) (hd : s.readable z dst = true) (hs : src = .ok b)
    (hw : s.writable z dst = true) :
    runUnit i.len (aluBody op z dst src s) s = .next (s.advance i
      { s.withOperand z dst (op z.bits s.flags (s.operand z dst) b).1 with
        flags := (op z.bits s.flags (s.operand z dst) b).2 }) := by
  have e : aluBody op z dst src s = s.writeRef z dst (op z.bits s.flags (s.operand z dst) b).1
      { Effect.start s with flags := (op z.bits s.flags (s.operand z dst) b).2 } := by
    simp [aluBody, State.readRef_of_readable hd, hs, bind, Except.bind]
  rw [e]
  exact (runUnit_write _ _ s.draws hw).trans (by cases dst <;> rfl)

theorem compareBody_next {op : AluOp} {z : Size} {a : Ref} {src : Except Stop (BitVec z.bits)} {s : State}
    {b : BitVec z.bits} (i : Instr) (ha : s.readable z a = true) (hs : src = .ok b) :
    runUnit i.len (compareBody op z a src s) s =
      .next (s.advance i { s with flags := (op z.bits s.flags (s.operand z a) b).2 }) := by
  have e : compareBody op z a src s = .ok { Effect.start s with flags := (op z.bits s.flags (s.operand z a) b).2 } := by
    simp [compareBody, State.readRef_of_readable ha, hs, bind, Except.bind]
  rw [e]
  rfl

theorem unaryBody_next {op : UnaryOp} {z : Size} {dst : Ref} {s : State} (i : Instr)
    (hd : s.readable z dst = true) (hw : s.writable z dst = true) :
    runUnit i.len (unaryBody op z dst s) s = .next (s.advance i
      { s.withOperand z dst (op z.bits s.flags (s.operand z dst)).1 with
        flags := (op z.bits s.flags (s.operand z dst)).2 }) := by
  have e : unaryBody op z dst s = s.writeRef z dst (op z.bits s.flags (s.operand z dst)).1
      { Effect.start s with flags := (op z.bits s.flags (s.operand z dst)).2 } := by
    simp [unaryBody, State.readRef_of_readable hd, bind, Except.bind]
  rw [e]
  exact (runUnit_write _ _ s.draws hw).trans (by cases dst <;> rfl)

theorem moveBody_next {z : Size} {dst : Ref} {src : Except Stop (BitVec z.bits)} {s : State} {v : BitVec z.bits}
    (i : Instr) (hs : src = .ok v) (hw : s.writable z dst = true) :
    runUnit i.len (moveBody z dst src s) s = .next (s.advance i (s.withOperand z dst v)) := by
  have e : moveBody z dst src s = s.writeRef z dst v (Effect.start s) := by simp [moveBody, hs, bind, Except.bind]
  rw [e]
  exact (runUnit_write v s.flags s.draws hw).trans (by cases dst <;> rfl)

/-- A shift that changes nothing. -/
theorem shiftBody_none {op : ShiftOp} {z : Size} {dst : Ref} {c : Nat} {s : State} (i : Instr)
    (hd : s.readable z dst = true) (ho : op s.params z.bits s.flags s.draws (s.operand z dst) c = none) :
    runUnit i.len (shiftBody op z dst c s) s = .next (s.advance i s) := by
  have e : shiftBody op z dst c s = .ok (Effect.start s) := by
    simp [shiftBody, State.readRef_of_readable hd, ho, bind, Except.bind]
  rw [e]
  rfl

/-- A shift that writes. -/
theorem shiftBody_some {op : ShiftOp} {z : Size} {dst : Ref} {c : Nat} {s : State} {o : Shifted z.bits} (i : Instr)
    (hd : s.readable z dst = true) (hw : s.writable z dst = true)
    (ho : op s.params z.bits s.flags s.draws (s.operand z dst) c = some o) :
    runUnit i.len (shiftBody op z dst c s) s =
      .next (s.advance i { s.withOperand z dst o.value with flags := o.flags, draws := o.draws }) := by
  have e : shiftBody op z dst c s =
      s.writeRef z dst o.value { Effect.start s with flags := o.flags, draws := o.draws } := by
    simp [shiftBody, State.readRef_of_readable hd, ho, bind, Except.bind]
  rw [e]
  exact runUnit_write o.value o.flags o.draws hw

/-- A unit that reads one operand and then writes registers and flags. -/
theorem readThen_next {z : Size} {src : Ref} {s : State} {k : BitVec z.bits → Effect} (i : Instr)
    (hr : s.readable z src = true) (hk : (k (s.operand z src)).store = none) :
    runUnit i.len ((s.readRef z src).bind fun v => .ok (k v)) s =
      .next (s.commit i.len (k (s.operand z src))) := by
  rw [State.readRef_of_readable hr]
  exact runUnit_of_ok rfl (Effect.hitsBlock_of_none _ _ hk)

end Sys2Proof.Machine
end

