-- ==== Sys2Proof/Laws/Decode.lean ====
section
/-! SUPPORT. Laws/Decode: the decoder reads back what the encoder wrote, piece by piece: the cursor, the ModRM
and SIB fields, the displacement, the r/m operand, the immediate, each operand format, and the prefixes
(30_encoding.md). Laws/PerInstr.lean puts them together for every row. -/

namespace Sys2Proof

/-- Bytes that were fetched, as cells. -/
def cells (bytes : List Byte) : List Cell := bytes.map .byte

@[simp] theorem cells_nil : cells [] = [] := rfl
@[simp] theorem cells_cons (b : Byte) (l : List Byte) : cells (b :: l) = .byte b :: cells l := rfl
@[simp] theorem cells_append (l l' : List Byte) : cells (l ++ l') = cells l ++ cells l' := by simp [cells]

/-! ### The cursor (R101, R102) -/

@[simp] theorem peek_byte (b : Byte) (c : List Cell) : peek (.byte b :: c) = .ok b := rfl

@[simp] theorem take1_byte (b : Byte) (c : List Cell) : take1 (.byte b :: c) = .ok (b, c) := rfl

theorem append_bytes2 (v : BitVec 16) : v.extractLsb' 8 8 ++ v.extractLsb' 0 8 = v := by
  apply BitVec.eq_of_getLsbD_eq
  intro k hk
  rw [BitVec.getLsbD_append]
  by_cases h : k < 8
  · simp [h]
  · simp [h, show k - 8 < 8 by omega, show 8 + (k - 8) = k by omega]

theorem append_bytes4 (v : BitVec 32) : v.extractLsb' 16 16 ++ v.extractLsb' 0 16 = v := by
  apply BitVec.eq_of_getLsbD_eq
  intro k hk
  rw [BitVec.getLsbD_append]
  by_cases h : k < 16
  · simp [h]
  · simp [h, show k - 16 < 16 by omega, show 16 + (k - 16) = k by omega]

@[simp] theorem take2_bytes2 (v : BitVec 16) (c : List Cell) : take2 (cells (bytes2 v) ++ c) = .ok (v, c) :=
  congrArg (fun x => Except.ok (x, c)) (append_bytes2 v)

@[simp] theorem take4_bytes4 (v : BitVec 32) (c : List Cell) : take4 (cells (bytes4 v) ++ c) = .ok (v, c) := by
  have e : take4 (cells (bytes4 v) ++ c) =
      (take2 (cells (bytes2 (v.extractLsb' 0 16)) ++ (cells (bytes2 (v.extractLsb' 16 16)) ++ c))).bind
        fun x => (take2 x.2).bind fun y => .ok (y.1 ++ x.1, y.2) := by
    simp [take4, bytes4, bind]
  rw [e, take2_bytes2]
  simp only [Except.bind, take2_bytes2, append_bytes4]

theorem takeZ_bytes {z : OpSize} {v : Immz} (c : List Cell) (h : v.opSize = z) :
    takeZ z (cells v.bytes ++ c) = .ok (v, c) := by
  subst h
  cases v <;> simp [Immz.opSize, takeZ, Immz.bytes, bind, Except.bind]

/-! ### Fields (R111, R123, R131, R133) -/

@[simp] theorem Reg.ofIndex_index (r : Reg) : Reg.ofIndex r.index = r := by cases r <;> rfl
@[simp] theorem Base16.ofIndex_index (b : Base16) : Base16.ofIndex b.index = b := by cases b <;> rfl
@[simp] theorem Scale.ofBits_ss (s : Scale) : Scale.ofBits s.ss = s := by cases s <;> rfl
@[simp] theorem Cond.ofBits_bits (cc : Cond) : Cond.ofBits cc.bits.toNat = cc := by cases cc <;> rfl

@[simp] theorem modField_packByte (m : BitVec 2) (r x : BitVec 3) : modField (packByte m r x) = m := by
  revert m r x; decide
@[simp] theorem regField_packByte (m : BitVec 2) (r x : BitVec 3) : regField (packByte m r x) = r := by
  revert m r x; decide
@[simp] theorem rmField_packByte (m : BitVec 2) (r x : BitVec 3) : rmField (packByte m r x) = x := by
  revert m r x; decide

/-! ### Displacements and memory forms (R114 to R124) -/

@[simp] theorem readDisp16_bytes (d : Disp16) (c : List Cell) :
    readDisp16 d.mod (cells d.bytes ++ c) = .ok (d, c) := by
  cases d <;> simp [readDisp16, Disp16.mod, Disp16.bytes, bind, Except.bind]

@[simp] theorem readDisp32_bytes (d : Disp32) (c : List Cell) :
    readDisp32 d.mod (cells d.bytes ++ c) = .ok (d, c) := by
  cases d <;> simp [readDisp32, Disp32.mod, Disp32.bytes, bind, Except.bind]

/-- The resolver reads back a memory form. -/
theorem readMem_tail {z : OpSize} {m : MemForm} (reg : BitVec 3) (c : List Cell) (h : m.wf z = true) :
    readMem z (packByte m.mod reg m.rm) (cells m.tail ++ c) = .ok (m, c) := by
  cases m with
  | based16 b d =>
    simp only [MemForm.wf, Bool.and_eq_true, beq_iff_eq, Bool.not_eq_true', Bool.and_eq_false_iff] at h
    obtain ⟨rfl, h⟩ := h
    have hne : ¬(d.mod = 0#2 ∧ b.index = 6#3) := by
      rintro ⟨h1, h2⟩
      cases b <;> cases d <;> simp_all [Base16.index, Disp16.mod]
    simp [readMem, MemForm.mod, MemForm.rm, MemForm.tail, hne, bind, Except.bind]
  | direct16 d =>
    simp only [MemForm.wf, beq_iff_eq] at h
    subst h
    simp [readMem, MemForm.mod, MemForm.rm, MemForm.tail, bind, Except.bind]
  | based32 b d =>
    simp only [MemForm.wf, Bool.and_eq_true, beq_iff_eq, bne_iff_ne, Bool.not_eq_true',
      Bool.and_eq_false_iff] at h
    obtain ⟨⟨rfl, hb⟩, h⟩ := h
    have h4 : b.index ≠ 4#3 := by
      intro e
      cases b <;> simp_all [Reg.index]
    have hne : ¬(d.mod = 0#2 ∧ b.index = 5#3) := by
      rintro ⟨h1, h2⟩
      cases b <;> cases d <;> simp_all [Reg.index, Disp32.mod]
    simp [readMem, MemForm.mod, MemForm.rm, MemForm.tail, h4, hne, bind, Except.bind]
  | direct32 d =>
    simp only [MemForm.wf, beq_iff_eq] at h
    subst h
    simp [readMem, MemForm.mod, MemForm.rm, MemForm.tail, bind, Except.bind]
  | sib sc ix b d =>
    simp only [MemForm.wf, Bool.and_eq_true, beq_iff_eq, Bool.not_eq_true', Bool.and_eq_false_iff] at h
    obtain ⟨rfl, h⟩ := h
    have hne : ¬(d.mod = 0#2 ∧ b.index = 5#3) := by
      rintro ⟨h1, h2⟩
      cases b <;> cases d <;> simp_all [Reg.index, Disp32.mod]
    simp [readMem, readSib, MemForm.mod, MemForm.rm, MemForm.tail, hne, bind, Except.bind]
  | sibDirect sc ix d =>
    simp only [MemForm.wf, beq_iff_eq] at h
    subst h
    simp [readMem, readSib, MemForm.mod, MemForm.rm, MemForm.tail, bind, Except.bind]

/-- No memory form has mod = 3 (R112). -/
theorem MemForm.mod_ne_three (m : MemForm) : m.mod ≠ 3#2 := by
  cases m with
  | based16 b d => cases d <;> simp [MemForm.mod, Disp16.mod]
  | direct16 d => simp [MemForm.mod]
  | based32 b d => cases d <;> simp [MemForm.mod, Disp32.mod]
  | direct32 d => simp [MemForm.mod]
  | sib sc ix b d => cases d <;> simp [MemForm.mod, Disp32.mod]
  | sibDirect sc ix d => simp [MemForm.mod]

/-- The resolver reads back an r/m operand. -/
theorem readRm_tail {z : OpSize} {rm : Rm} (reg : BitVec 3) (c : List Cell) (h : rm.wf z = true) :
    readRm z (packByte rm.mod reg rm.rm) (cells rm.tail ++ c) = .ok (rm, c) := by
  cases rm with
  | reg r => simp [readRm, Rm.mod, Rm.rm, Rm.tail]
  | mem m =>
    have := readMem_tail reg c (show m.wf z = true from h)
    simp [readRm, Rm.mod, Rm.rm, Rm.tail, m.mod_ne_three, this, bind, Except.bind]

/-! ### Operand formats -/

theorem fmtRegRm_encode {p : Prefixes} {reg : Reg} {rm : Rm} (k : Reg → Rm → Instr) (c : List Cell)
    (h : rm.wf p.addrSize = true) :
    fmtRegRm p k (.byte (packByte rm.mod reg.index rm.rm) :: (cells rm.tail ++ c)) = .ok (k reg rm, c) := by
  simp [fmtRegRm, readRm_tail reg.index c h, bind, Except.bind]

theorem fmtRegRmImm8_encode {p : Prefixes} {reg : Reg} {rm : Rm} (k : Reg → Rm → BitVec 8 → Instr) (v : BitVec 8)
    (c : List Cell) (h : rm.wf p.addrSize = true) :
    fmtRegRmImm8 p k (.byte (packByte rm.mod reg.index rm.rm) :: (cells rm.tail ++ (.byte v :: c))) =
      .ok (k reg rm v, c) := by
  simp [fmtRegRmImm8, readRm_tail reg.index _ h, bind, Except.bind]

theorem fmtRegRmImmz_encode {p : Prefixes} {reg : Reg} {rm : Rm} {v : Immz} (k : Reg → Rm → Immz → Instr)
    (c : List Cell) (h : rm.wf p.addrSize = true) (hv : v.opSize = p.opSize) :
    fmtRegRmImmz p k (.byte (packByte rm.mod reg.index rm.rm) :: (cells rm.tail ++ (cells v.bytes ++ c))) =
      .ok (k reg rm v, c) := by
  simp [fmtRegRmImmz, readRm_tail reg.index _ h, takeZ_bytes c hv, bind, Except.bind]

theorem fmtLea_encode {p : Prefixes} {reg : Reg} {m : MemForm} (k : Reg → MemForm → Instr) (c : List Cell)
    (h : m.wf p.addrSize = true) :
    fmtLea p k (.byte (packByte m.mod reg.index m.rm) :: (cells m.tail ++ c)) = .ok (k reg m, c) := by
  simp [fmtLea, m.mod_ne_three, readMem_tail reg.index c h, bind, Except.bind]

theorem fmtRm_encode {p : Prefixes} {rm : Rm} (ext : BitVec 3) (k : Rm → Instr) (c : List Cell)
    (h : rm.wf p.addrSize = true) :
    fmtRm p (packByte rm.mod ext rm.rm) k (cells rm.tail ++ c) = .ok (k rm, c) := by
  simp [fmtRm, readRm_tail ext c h, bind, Except.bind]

theorem fmtRmImm8_encode {p : Prefixes} {rm : Rm} (ext : BitVec 3) (k : Rm → BitVec 8 → Instr) (v : BitVec 8)
    (c : List Cell) (h : rm.wf p.addrSize = true) :
    fmtRmImm8 p (packByte rm.mod ext rm.rm) k (cells rm.tail ++ (.byte v :: c)) = .ok (k rm v, c) := by
  simp [fmtRmImm8, readRm_tail ext _ h, bind, Except.bind]

theorem fmtRmImmz_encode {p : Prefixes} {rm : Rm} {v : Immz} (ext : BitVec 3) (k : Rm → Immz → Instr) (c : List Cell)
    (h : rm.wf p.addrSize = true) (hv : v.opSize = p.opSize) :
    fmtRmImmz p (packByte rm.mod ext rm.rm) k (cells rm.tail ++ (cells v.bytes ++ c)) = .ok (k rm v, c) := by
  simp [fmtRmImmz, readRm_tail ext _ h, takeZ_bytes c hv, bind, Except.bind]

theorem fmtImm8_encode (k : BitVec 8 → Instr) (v : BitVec 8) (c : List Cell) :
    fmtImm8 k (.byte v :: c) = .ok (k v, c) := rfl

theorem fmtImm16_encode (k : BitVec 16 → Instr) (v : BitVec 16) (c : List Cell) :
    fmtImm16 k (cells (bytes2 v) ++ c) = .ok (k v, c) := by
  simp [fmtImm16, bind, Except.bind]

theorem fmtImmz_encode {z : OpSize} {v : Immz} (k : Immz → Instr) (c : List Cell) (h : v.opSize = z) :
    fmtImmz z k (cells v.bytes ++ c) = .ok (k v, c) := by
  simp [fmtImmz, takeZ_bytes c h, bind, Except.bind]

theorem fmtSetcc_encode {p : Prefixes} {rm : Rm} (cc : Cond) (ext : BitVec 3) (c : List Cell)
    (h : rm.wf p.addrSize = true) :
    fmtSetcc p cc (.byte (packByte rm.mod ext rm.rm) :: (cells rm.tail ++ c)) = .ok (.setccRm8 p cc ext rm, c) := by
  simp [fmtSetcc, readRm_tail ext c h, bind, Except.bind]

/-! ### Prefixes (R106 to R110) -/

@[simp] theorem Prefix.ofByte_byte (q : Prefix) : Prefix.ofByte q.byte = some q := by
  cases q with
  | opSize => rfl
  | addrSize => rfl
  | seg s => cases s <;> rfl

/-- A byte that ends the prefix loop as an opcode: no prefix, and none of the refused ones (R109). -/
def endsPrefixes (b : Byte) : Bool := Prefix.ofByte b == none && b != 0xF0#8 && b != 0xF2#8 && b != 0xF3#8

theorem readPrefixes_opcode {b : Byte} (seen : Option SegReg) (c : List Cell) (h : endsPrefixes b = true) :
    readPrefixes seen (.byte b :: c) = .ok ([], b, c) := by
  simp only [endsPrefixes, Bool.and_eq_true, beq_iff_eq, bne_iff_ne] at h
  simp [readPrefixes, h]

/-- The prefix loop reads back prefixes that name at most the one segment override `seen`. -/
theorem readPrefixes_encode {l : List Prefix} {b : Byte} (seen : Option SegReg) (c : List Cell)
    (hl : ∀ s, .seg s ∈ l → seen = none ∨ seen = some s)
    (hu : ∀ s s', .seg s ∈ l → .seg s' ∈ l → s = s') (hb : endsPrefixes b = true) :
    readPrefixes seen (cells (l.map Prefix.byte) ++ (.byte b :: c)) = .ok (l, b, c) := by
  induction l generalizing seen with
  | nil => exact readPrefixes_opcode seen c hb
  | cons q l ih =>
    have hu' : ∀ s s', .seg s ∈ l → .seg s' ∈ l → s = s' := fun s s' h h' => hu s s' (by simp [h]) (by simp [h'])
    cases q with
    | opSize =>
      simp [readPrefixes, ih seen (fun s h => hl s (by simp [h])) hu', Except.map]
    | addrSize =>
      simp [readPrefixes, ih seen (fun s h => hl s (by simp [h])) hu', Except.map]
    | seg s =>
      have hs := hl s (by simp)
      have := ih (some s) (fun s' h => .inr (by rw [hu s s' (by simp) (by simp [h])])) hu'
      simp [readPrefixes, hs, this, Except.map]

theorem segOverride_mem {l : List Prefix} {s : SegReg} (h : segOverride l = some s) : .seg s ∈ l := by
  induction l with
  | nil => simp [segOverride] at h
  | cons q l ih =>
    cases q with
    | opSize => simp [segOverride] at h; simp [ih h]
    | addrSize => simp [segOverride] at h; simp [ih h]
    | seg s' => simp [segOverride] at h; simp [h]

/-- Well-formed prefixes name one segment override at most (R108). -/
theorem Prefixes.wf_unique {p : Prefixes} (h : p.wf = true) {s s' : SegReg} (hs : .seg s ∈ p.list)
    (hs' : .seg s' ∈ p.list) : s = s' := by
  simp only [Prefixes.wf, List.all_eq_true] at h
  have h1 := h _ hs
  have h2 := h _ hs'
  simp only [beq_iff_eq] at h1 h2
  exact Option.some.inj (h1.symm.trans h2)

/-- The prefixes of a well-formed instruction are read back, whatever follows them. -/
theorem readPrefixes_wf {p : Prefixes} {b : Byte} (c : List Cell) (h : p.wf = true) (hb : endsPrefixes b = true) :
    readPrefixes none (cells (p.list.map Prefix.byte) ++ (.byte b :: c)) = .ok (p.list, b, c) :=
  readPrefixes_encode none c (fun _ _ => .inl rfl) (fun _ _ => Prefixes.wf_unique h) hb

/-! ### Lengths (R128, R144) -/

@[simp] theorem bytes2_length (v : BitVec 16) : (bytes2 v).length = 2 := rfl
@[simp] theorem bytes4_length (v : BitVec 32) : (bytes4 v).length = 4 := rfl
theorem Immz.bytes_length (v : Immz) : v.bytes.length = v.len := by cases v <;> rfl
theorem Disp16.bytes_length (d : Disp16) : d.bytes.length = d.len := by cases d <;> rfl
theorem Disp32.bytes_length (d : Disp32) : d.bytes.length = d.len := by cases d <;> rfl
theorem ImmField.bytes_length (v : ImmField) : v.bytes.length = v.len := by
  cases v <;> first | rfl | exact Immz.bytes_length _

/-- The resolver's byte counts are those of the bytes (R128). -/
theorem Rm.tail_length (rm : Rm) : rm.tail.length + 1 = rm.len := by
  cases rm with
  | reg r => rfl
  | mem m => cases m <;> simp [Rm.tail, MemForm.tail, Rm.len, Disp16.bytes_length, Disp32.bytes_length] <;> omega

end Sys2Proof
end

