-- ==== Sys2Proof/Laws/PerInstr.lean ====
section
/-! SUPPORT. Laws/PerInstr: the family OpcodeReads. Its statement says of an instruction that its opcode byte ends
the prefix loop and that, prefixes read, the decoder makes this instruction of its opcode bytes, ModRM bytes
and immediate, and leaves the cells after them (30_encoding.md R110, R134 to R140). One lemma per row. -/

namespace Sys2Proof

/-- The first opcode byte of a layout (R110). -/
def Layout.first (l : Layout) : Byte := if l.two then 0x0F else l.op

/-- The cells of ModRM byte, SIB and displacement, before the cells c. -/
def modrmCells (m : Option (BitVec 3 × Rm)) (c : List Cell) : List Cell :=
  match m with
  | none => c
  | some (reg, rm) => .byte (packByte rm.mod reg rm.rm) :: (cells rm.tail ++ c)

/-- The cells of the immediate, before the cells c. -/
def ImmField.cells (v : ImmField) (c : List Cell) : List Cell :=
  match v with
  | .none => c
  | .b v => .byte v :: c
  | .w v => Sys2Proof.cells (bytes2 v) ++ c
  | .z v => Sys2Proof.cells v.bytes ++ c
  | .m v => Sys2Proof.cells v.bytes ++ c

/-- The cells of a layout after its first opcode byte, before the cells c. -/
def Layout.after (l : Layout) (c : List Cell) : List Cell :=
  if l.two then .byte l.op :: modrmCells l.modrm (l.imm.cells c) else modrmCells l.modrm (l.imm.cells c)

/-- The cells of an encoding, before the cells c. -/
theorem cells_encode (i : Instr) (c : List Cell) :
    cells (encode i) ++ c =
      cells (i.pfx.list.map Prefix.byte) ++ (.byte i.layout.first :: i.layout.after c) := by
  have hm : ∀ (m : Option (BitVec 3 × Rm)) (v : ImmField),
      cells (modrmBytes m) ++ (cells v.bytes ++ c) = modrmCells m (v.cells c) :=
    fun m v => by cases m <;> cases v <;> rfl
  simp only [encode, Layout.bytes, cells_append, List.append_assoc, hm, Instr.pfx]
  unfold Layout.opBytes Layout.first Layout.after
  cases i.layout.two <;> rfl

end Sys2Proof

namespace Sys2Proof.Laws.OpcodeReads

/-- The decoder reads the instruction back from the bytes after its prefixes. -/
def Statement (i : Instr) : Prop :=
  (i.layout.modrm.all fun x => x.2.wf i.layout.pfx.addrSize) = true → i.layout.imm.wf i.layout.pfx = true →
    endsPrefixes i.layout.first = true ∧
      ∀ c, decodeOpcode i.pfx i.layout.first (i.layout.after c) = .ok (i, c)

/-! ### The groups after a packed ModRM byte -/

theorem group80_packByte (p : Prefixes) (al : Opcode80) (m : BitVec 2) (ext x : BitVec 3) (c : List Cell) :
    group80 p al (.byte (packByte m ext x) :: c) =
      match ext.toNat with
      | 0 => fmtRmImm8 p (packByte m ext x) (.addRm8Imm8 p al) c
      | 1 => fmtRmImm8 p (packByte m ext x) (.orRm8Imm8 p al) c
      | 2 => fmtRmImm8 p (packByte m ext x) (.adcRm8Imm8 p al) c
      | 3 => fmtRmImm8 p (packByte m ext x) (.sbbRm8Imm8 p al) c
      | 4 => fmtRmImm8 p (packByte m ext x) (.andRm8Imm8 p al) c
      | 5 => fmtRmImm8 p (packByte m ext x) (.subRm8Imm8 p al) c
      | 6 => fmtRmImm8 p (packByte m ext x) (.xorRm8Imm8 p al) c
      | _ => fmtRmImm8 p (packByte m ext x) (.cmpRm8Imm8 p al) c := by
  simp only [group80, take1_byte, regField_packByte, bind, Except.bind] <;> rfl

theorem group81_packByte (p : Prefixes) (m : BitVec 2) (ext x : BitVec 3) (c : List Cell) :
    group81 p (.byte (packByte m ext x) :: c) =
      match ext.toNat with
      | 0 => fmtRmImmz p (packByte m ext x) (.addRmvImmz p) c
      | 1 => fmtRmImmz p (packByte m ext x) (.orRmvImmz p) c
      | 2 => fmtRmImmz p (packByte m ext x) (.adcRmvImmz p) c
      | 3 => fmtRmImmz p (packByte m ext x) (.sbbRmvImmz p) c
      | 4 => fmtRmImmz p (packByte m ext x) (.andRmvImmz p) c
      | 5 => fmtRmImmz p (packByte m ext x) (.subRmvImmz p) c
      | 6 => fmtRmImmz p (packByte m ext x) (.xorRmvImmz p) c
      | _ => fmtRmImmz p (packByte m ext x) (.cmpRmvImmz p) c := by
  simp only [group81, take1_byte, regField_packByte, bind, Except.bind] <;> rfl

theorem group83_packByte (p : Prefixes) (m : BitVec 2) (ext x : BitVec 3) (c : List Cell) :
    group83 p (.byte (packByte m ext x) :: c) =
      match ext.toNat with
      | 0 => fmtRmImm8 p (packByte m ext x) (.addRmvImm8 p) c
      | 1 => fmtRmImm8 p (packByte m ext x) (.orRmvImm8 p) c
      | 2 => fmtRmImm8 p (packByte m ext x) (.adcRmvImm8 p) c
      | 3 => fmtRmImm8 p (packByte m ext x) (.sbbRmvImm8 p) c
      | 4 => fmtRmImm8 p (packByte m ext x) (.andRmvImm8 p) c
      | 5 => fmtRmImm8 p (packByte m ext x) (.subRmvImm8 p) c
      | 6 => fmtRmImm8 p (packByte m ext x) (.xorRmvImm8 p) c
      | _ => fmtRmImm8 p (packByte m ext x) (.cmpRmvImm8 p) c := by
  simp only [group83, take1_byte, regField_packByte, bind, Except.bind] <;> rfl

theorem groupC0_packByte (p : Prefixes) (m : BitVec 2) (ext x : BitVec 3) (c : List Cell) :
    groupC0 p (.byte (packByte m ext x) :: c) =
      match ext.toNat with
      | 0 => fmtRmImm8 p (packByte m ext x) (.rolRm8Imm8 p) c
      | 1 => fmtRmImm8 p (packByte m ext x) (.rorRm8Imm8 p) c
      | 2 => fmtRmImm8 p (packByte m ext x) (.rclRm8Imm8 p) c
      | 3 => fmtRmImm8 p (packByte m ext x) (.rcrRm8Imm8 p) c
      | 4 => fmtRmImm8 p (packByte m ext x) (.shlRm8Imm8 p) c
      | 5 => fmtRmImm8 p (packByte m ext x) (.shrRm8Imm8 p) c
      | 6 => notAdmitted [0xC0, (packByte m ext x)]
      | _ => fmtRmImm8 p (packByte m ext x) (.sarRm8Imm8 p) c := by
  simp only [groupC0, take1_byte, regField_packByte, bind, Except.bind] <;> rfl

theorem groupC1_packByte (p : Prefixes) (m : BitVec 2) (ext x : BitVec 3) (c : List Cell) :
    groupC1 p (.byte (packByte m ext x) :: c) =
      match ext.toNat with
      | 0 => fmtRmImm8 p (packByte m ext x) (.rolRmvImm8 p) c
      | 1 => fmtRmImm8 p (packByte m ext x) (.rorRmvImm8 p) c
      | 2 => fmtRmImm8 p (packByte m ext x) (.rclRmvImm8 p) c
      | 3 => fmtRmImm8 p (packByte m ext x) (.rcrRmvImm8 p) c
      | 4 => fmtRmImm8 p (packByte m ext x) (.shlRmvImm8 p) c
      | 5 => fmtRmImm8 p (packByte m ext x) (.shrRmvImm8 p) c
      | 6 => notAdmitted [0xC1, (packByte m ext x)]
      | _ => fmtRmImm8 p (packByte m ext x) (.sarRmvImm8 p) c := by
  simp only [groupC1, take1_byte, regField_packByte, bind, Except.bind] <;> rfl

theorem groupD0_packByte (p : Prefixes) (m : BitVec 2) (ext x : BitVec 3) (c : List Cell) :
    groupD0 p (.byte (packByte m ext x) :: c) =
      match ext.toNat with
      | 0 => fmtRm p (packByte m ext x) (.rolRm8One p) c
      | 1 => fmtRm p (packByte m ext x) (.rorRm8One p) c
      | 2 => fmtRm p (packByte m ext x) (.rclRm8One p) c
      | 3 => fmtRm p (packByte m ext x) (.rcrRm8One p) c
      | 4 => fmtRm p (packByte m ext x) (.shlRm8One p) c
      | 5 => fmtRm p (packByte m ext x) (.shrRm8One p) c
      | 6 => notAdmitted [0xD0, (packByte m ext x)]
      | _ => fmtRm p (packByte m ext x) (.sarRm8One p) c := by
  simp only [groupD0, take1_byte, regField_packByte, bind, Except.bind] <;> rfl

theorem groupD1_packByte (p : Prefixes) (m : BitVec 2) (ext x : BitVec 3) (c : List Cell) :
    groupD1 p (.byte (packByte m ext x) :: c) =
      match ext.toNat with
      | 0 => fmtRm p (packByte m ext x) (.rolRmvOne p) c
      | 1 => fmtRm p (packByte m ext x) (.rorRmvOne p) c
      | 2 => fmtRm p (packByte m ext x) (.rclRmvOne p) c
      | 3 => fmtRm p (packByte m ext x) (.rcrRmvOne p) c
      | 4 => fmtRm p (packByte m ext x) (.shlRmvOne p) c
      | 5 => fmtRm p (packByte m ext x) (.shrRmvOne p) c
      | 6 => notAdmitted [0xD1, (packByte m ext x)]
      | _ => fmtRm p (packByte m ext x) (.sarRmvOne p) c := by
  simp only [groupD1, take1_byte, regField_packByte, bind, Except.bind] <;> rfl

theorem groupD2_packByte (p : Prefixes) (m : BitVec 2) (ext x : BitVec 3) (c : List Cell) :
    groupD2 p (.byte (packByte m ext x) :: c) =
      match ext.toNat with
      | 0 => fmtRm p (packByte m ext x) (.rolRm8Cl p) c
      | 1 => fmtRm p (packByte m ext x) (.rorRm8Cl p) c
      | 2 => fmtRm p (packByte m ext x) (.rclRm8Cl p) c
      | 3 => fmtRm p (packByte m ext x) (.rcrRm8Cl p) c
      | 4 => fmtRm p (packByte m ext x) (.shlRm8Cl p) c
      | 5 => fmtRm p (packByte m ext x) (.shrRm8Cl p) c
      | 6 => notAdmitted [0xD2, (packByte m ext x)]
      | _ => fmtRm p (packByte m ext x) (.sarRm8Cl p) c := by
  simp only [groupD2, take1_byte, regField_packByte, bind, Except.bind] <;> rfl

theorem groupD3_packByte (p : Prefixes) (m : BitVec 2) (ext x : BitVec 3) (c : List Cell) :
    groupD3 p (.byte (packByte m ext x) :: c) =
      match ext.toNat with
      | 0 => fmtRm p (packByte m ext x) (.rolRmvCl p) c
      | 1 => fmtRm p (packByte m ext x) (.rorRmvCl p) c
      | 2 => fmtRm p (packByte m ext x) (.rclRmvCl p) c
      | 3 => fmtRm p (packByte m ext x) (.rcrRmvCl p) c
      | 4 => fmtRm p (packByte m ext x) (.shlRmvCl p) c
      | 5 => fmtRm p (packByte m ext x) (.shrRmvCl p) c
      | 6 => notAdmitted [0xD3, (packByte m ext x)]
      | _ => fmtRm p (packByte m ext x) (.sarRmvCl p) c := by
  simp only [groupD3, take1_byte, regField_packByte, bind, Except.bind] <;> rfl

theorem groupF6_packByte (p : Prefixes) (m : BitVec 2) (ext x : BitVec 3) (c : List Cell) :
    groupF6 p (.byte (packByte m ext x) :: c) =
      match ext.toNat with
      | 0 => fmtRmImm8 p (packByte m ext x) (.testRm8Imm8 p) c
      | 1 => notAdmitted [0xF6, (packByte m ext x)]
      | 2 => fmtRm p (packByte m ext x) (.notRm8 p) c
      | 3 => fmtRm p (packByte m ext x) (.negRm8 p) c
      | 4 => fmtRm p (packByte m ext x) (.mulRm8 p) c
      | 5 => fmtRm p (packByte m ext x) (.imulRm8 p) c
      | 6 => fmtRm p (packByte m ext x) (.divRm8 p) c
      | _ => fmtRm p (packByte m ext x) (.idivRm8 p) c := by
  simp only [groupF6, take1_byte, regField_packByte, bind, Except.bind] <;> rfl

theorem groupF7_packByte (p : Prefixes) (m : BitVec 2) (ext x : BitVec 3) (c : List Cell) :
    groupF7 p (.byte (packByte m ext x) :: c) =
      match ext.toNat with
      | 0 => fmtRmImmz p (packByte m ext x) (.testRmvImmz p) c
      | 1 => notAdmitted [0xF7, (packByte m ext x)]
      | 2 => fmtRm p (packByte m ext x) (.notRmv p) c
      | 3 => fmtRm p (packByte m ext x) (.negRmv p) c
      | 4 => fmtRm p (packByte m ext x) (.mulRmv p) c
      | 5 => fmtRm p (packByte m ext x) (.imulRmv p) c
      | 6 => fmtRm p (packByte m ext x) (.divRmv p) c
      | _ => fmtRm p (packByte m ext x) (.idivRmv p) c := by
  simp only [groupF7, take1_byte, regField_packByte, bind, Except.bind] <;> rfl

theorem groupFE_packByte (p : Prefixes) (m : BitVec 2) (ext x : BitVec 3) (c : List Cell) :
    groupFE p (.byte (packByte m ext x) :: c) =
      match ext.toNat with
      | 0 => fmtRm p (packByte m ext x) (.incRm8 p) c
      | 1 => fmtRm p (packByte m ext x) (.decRm8 p) c
      | _ => reserved := by
  simp only [groupFE, take1_byte, regField_packByte, bind, Except.bind] <;> rfl

theorem groupFF_packByte (p : Prefixes) (m : BitVec 2) (ext x : BitVec 3) (c : List Cell) :
    groupFF p (.byte (packByte m ext x) :: c) =
      match ext.toNat with
      | 0 => fmtRm p (packByte m ext x) (.incRmv p) c
      | 1 => fmtRm p (packByte m ext x) (.decRmv p) c
      | 2 => fmtRm p (packByte m ext x) (.callRmv p) c
      | 3 => notAdmitted [0xFF, (packByte m ext x)]
      | 4 => fmtRm p (packByte m ext x) (.jmpRmv p) c
      | 5 => notAdmitted [0xFF, (packByte m ext x)]
      | 6 => fmtRm p (packByte m ext x) (.pushRmv p) c
      | _ => reserved := by
  simp only [groupFF, take1_byte, regField_packByte, bind, Except.bind] <;> rfl

theorem groupC6_packByte (p : Prefixes) (m : BitVec 2) (ext x : BitVec 3) (c : List Cell) :
    groupC6 p (.byte (packByte m ext x) :: c) =
      match ext.toNat with
      | 0 => fmtRmImm8 p (packByte m ext x) (.movRm8Imm8 p) c
      | _ => reserved := by
  simp only [groupC6, take1_byte, regField_packByte, bind, Except.bind] <;> rfl

theorem groupC7_packByte (p : Prefixes) (m : BitVec 2) (ext x : BitVec 3) (c : List Cell) :
    groupC7 p (.byte (packByte m ext x) :: c) =
      match ext.toNat with
      | 0 => fmtRmImmz p (packByte m ext x) (.movRmvImmz p) c
      | _ => reserved := by
  simp only [groupC7, take1_byte, regField_packByte, bind, Except.bind] <;> rfl

theorem addRm8R8 (p : Prefixes) (reg : Reg) (rm : Rm) : Statement (.addRm8R8 p reg rm) :=
  fun hm _ =>
    have e : ∀ d, decodeOpcode p 0x00 d = fmtRegRm p (.addRm8R8 p) d := fun _ => rfl
    ⟨rfl, fun c => (e _).trans (fmtRegRm_encode (p := p) (reg := reg) (rm := rm) (.addRm8R8 p) c hm)⟩

theorem addRmvRv (p : Prefixes) (reg : Reg) (rm : Rm) : Statement (.addRmvRv p reg rm) :=
  fun hm _ =>
    have e : ∀ d, decodeOpcode p 0x01 d = fmtRegRm p (.addRmvRv p) d := fun _ => rfl
    ⟨rfl, fun c => (e _).trans (fmtRegRm_encode (p := p) (reg := reg) (rm := rm) (.addRmvRv p) c hm)⟩

theorem addR8Rm8 (p : Prefixes) (reg : Reg) (rm : Rm) : Statement (.addR8Rm8 p reg rm) :=
  fun hm _ =>
    have e : ∀ d, decodeOpcode p 0x02 d = fmtRegRm p (.addR8Rm8 p) d := fun _ => rfl
    ⟨rfl, fun c => (e _).trans (fmtRegRm_encode (p := p) (reg := reg) (rm := rm) (.addR8Rm8 p) c hm)⟩

theorem addRvRmv (p : Prefixes) (reg : Reg) (rm : Rm) : Statement (.addRvRmv p reg rm) :=
  fun hm _ =>
    have e : ∀ d, decodeOpcode p 0x03 d = fmtRegRm p (.addRvRmv p) d := fun _ => rfl
    ⟨rfl, fun c => (e _).trans (fmtRegRm_encode (p := p) (reg := reg) (rm := rm) (.addRvRmv p) c hm)⟩

theorem addAlImm8 (p : Prefixes) (imm : BitVec 8) : Statement (.addAlImm8 p imm) :=
  fun _ _ =>
    have e : ∀ d, decodeOpcode p 0x04 d = fmtImm8 (.addAlImm8 p) d := fun _ => rfl
    ⟨rfl, fun c => (e _).trans (fmtImm8_encode (.addAlImm8 p) imm c)⟩

theorem addEaxImmz (p : Prefixes) (imm : Immz) : Statement (.addEaxImmz p imm) :=
  fun _ hi =>
    have e : ∀ d, decodeOpcode p 0x05 d = fmtImmz p.opSize (.addEaxImmz p) d := fun _ => rfl
    ⟨rfl, fun c => (e _).trans (fmtImmz_encode (v := imm) (.addEaxImmz p) c (eq_of_beq hi))⟩

theorem orRm8R8 (p : Prefixes) (reg : Reg) (rm : Rm) : Statement (.orRm8R8 p reg rm) :=
  fun hm _ =>
    have e : ∀ d, decodeOpcode p 0x08 d = fmtRegRm p (.orRm8R8 p) d := fun _ => rfl
    ⟨rfl, fun c => (e _).trans (fmtRegRm_encode (p := p) (reg := reg) (rm := rm) (.orRm8R8 p) c hm)⟩

theorem orRmvRv (p : Prefixes) (reg : Reg) (rm : Rm) : Statement (.orRmvRv p reg rm) :=
  fun hm _ =>
    have e : ∀ d, decodeOpcode p 0x09 d = fmtRegRm p (.orRmvRv p) d := fun _ => rfl
    ⟨rfl, fun c => (e _).trans (fmtRegRm_encode (p := p) (reg := reg) (rm := rm) (.orRmvRv p) c hm)⟩

theorem orR8Rm8 (p : Prefixes) (reg : Reg) (rm : Rm) : Statement (.orR8Rm8 p reg rm) :=
  fun hm _ =>
    have e : ∀ d, decodeOpcode p 0x0A d = fmtRegRm p (.orR8Rm8 p) d := fun _ => rfl
    ⟨rfl, fun c => (e _).trans (fmtRegRm_encode (p := p) (reg := reg) (rm := rm) (.orR8Rm8 p) c hm)⟩

theorem orRvRmv (p : Prefixes) (reg : Reg) (rm : Rm) : Statement (.orRvRmv p reg rm) :=
  fun hm _ =>
    have e : ∀ d, decodeOpcode p 0x0B d = fmtRegRm p (.orRvRmv p) d := fun _ => rfl
    ⟨rfl, fun c => (e _).trans (fmtRegRm_encode (p := p) (reg := reg) (rm := rm) (.orRvRmv p) c hm)⟩

theorem orAlImm8 (p : Prefixes) (imm : BitVec 8) : Statement (.orAlImm8 p imm) :=
  fun _ _ =>
    have e : ∀ d, decodeOpcode p 0x0C d = fmtImm8 (.orAlImm8 p) d := fun _ => rfl
    ⟨rfl, fun c => (e _).trans (fmtImm8_encode (.orAlImm8 p) imm c)⟩

theorem orEaxImmz (p : Prefixes) (imm : Immz) : Statement (.orEaxImmz p imm) :=
  fun _ hi =>
    have e : ∀ d, decodeOpcode p 0x0D d = fmtImmz p.opSize (.orEaxImmz p) d := fun _ => rfl
    ⟨rfl, fun c => (e _).trans (fmtImmz_encode (v := imm) (.orEaxImmz p) c (eq_of_beq hi))⟩

theorem adcRm8R8 (p : Prefixes) (reg : Reg) (rm : Rm) : Statement (.adcRm8R8 p reg rm) :=
  fun hm _ =>
    have e : ∀ d, decodeOpcode p 0x10 d = fmtRegRm p (.adcRm8R8 p) d := fun _ => rfl
    ⟨rfl, fun c => (e _).trans (fmtRegRm_encode (p := p) (reg := reg) (rm := rm) (.adcRm8R8 p) c hm)⟩

theorem adcRmvRv (p : Prefixes) (reg : Reg) (rm : Rm) : Statement (.adcRmvRv p reg rm) :=
  fun hm _ =>
    have e : ∀ d, decodeOpcode p 0x11 d = fmtRegRm p (.adcRmvRv p) d := fun _ => rfl
    ⟨rfl, fun c => (e _).trans (fmtRegRm_encode (p := p) (reg := reg) (rm := rm) (.adcRmvRv p) c hm)⟩

theorem adcR8Rm8 (p : Prefixes) (reg : Reg) (rm : Rm) : Statement (.adcR8Rm8 p reg rm) :=
  fun hm _ =>
    have e : ∀ d, decodeOpcode p 0x12 d = fmtRegRm p (.adcR8Rm8 p) d := fun _ => rfl
    ⟨rfl, fun c => (e _).trans (fmtRegRm_encode (p := p) (reg := reg) (rm := rm) (.adcR8Rm8 p) c hm)⟩

theorem adcRvRmv (p : Prefixes) (reg : Reg) (rm : Rm) : Statement (.adcRvRmv p reg rm) :=
  fun hm _ =>
    have e : ∀ d, decodeOpcode p 0x13 d = fmtRegRm p (.adcRvRmv p) d := fun _ => rfl
    ⟨rfl, fun c => (e _).trans (fmtRegRm_encode (p := p) (reg := reg) (rm := rm) (.adcRvRmv p) c hm)⟩

theorem adcAlImm8 (p : Prefixes) (imm : BitVec 8) : Statement (.adcAlImm8 p imm) :=
  fun _ _ =>
    have e : ∀ d, decodeOpcode p 0x14 d = fmtImm8 (.adcAlImm8 p) d := fun _ => rfl
    ⟨rfl, fun c => (e _).trans (fmtImm8_encode (.adcAlImm8 p) imm c)⟩

theorem adcEaxImmz (p : Prefixes) (imm : Immz) : Statement (.adcEaxImmz p imm) :=
  fun _ hi =>
    have e : ∀ d, decodeOpcode p 0x15 d = fmtImmz p.opSize (.adcEaxImmz p) d := fun _ => rfl
    ⟨rfl, fun c => (e _).trans (fmtImmz_encode (v := imm) (.adcEaxImmz p) c (eq_of_beq hi))⟩

theorem sbbRm8R8 (p : Prefixes) (reg : Reg) (rm : Rm) : Statement (.sbbRm8R8 p reg rm) :=
  fun hm _ =>
    have e : ∀ d, decodeOpcode p 0x18 d = fmtRegRm p (.sbbRm8R8 p) d := fun _ => rfl
    ⟨rfl, fun c => (e _).trans (fmtRegRm_encode (p := p) (reg := reg) (rm := rm) (.sbbRm8R8 p) c hm)⟩

theorem sbbRmvRv (p : Prefixes) (reg : Reg) (rm : Rm) : Statement (.sbbRmvRv p reg rm) :=
  fun hm _ =>
    have e : ∀ d, decodeOpcode p 0x19 d = fmtRegRm p (.sbbRmvRv p) d := fun _ => rfl
    ⟨rfl, fun c => (e _).trans (fmtRegRm_encode (p := p) (reg := reg) (rm := rm) (.sbbRmvRv p) c hm)⟩

theorem sbbR8Rm8 (p : Prefixes) (reg : Reg) (rm : Rm) : Statement (.sbbR8Rm8 p reg rm) :=
  fun hm _ =>
    have e : ∀ d, decodeOpcode p 0x1A d = fmtRegRm p (.sbbR8Rm8 p) d := fun _ => rfl
    ⟨rfl, fun c => (e _).trans (fmtRegRm_encode (p := p) (reg := reg) (rm := rm) (.sbbR8Rm8 p) c hm)⟩

theorem sbbRvRmv (p : Prefixes) (reg : Reg) (rm : Rm) : Statement (.sbbRvRmv p reg rm) :=
  fun hm _ =>
    have e : ∀ d, decodeOpcode p 0x1B d = fmtRegRm p (.sbbRvRmv p) d := fun _ => rfl
    ⟨rfl, fun c => (e _).trans (fmtRegRm_encode (p := p) (reg := reg) (rm := rm) (.sbbRvRmv p) c hm)⟩

theorem sbbAlImm8 (p : Prefixes) (imm : BitVec 8) : Statement (.sbbAlImm8 p imm) :=
  fun _ _ =>
    have e : ∀ d, decodeOpcode p 0x1C d = fmtImm8 (.sbbAlImm8 p) d := fun _ => rfl
    ⟨rfl, fun c => (e _).trans (fmtImm8_encode (.sbbAlImm8 p) imm c)⟩

theorem sbbEaxImmz (p : Prefixes) (imm : Immz) : Statement (.sbbEaxImmz p imm) :=
  fun _ hi =>
    have e : ∀ d, decodeOpcode p 0x1D d = fmtImmz p.opSize (.sbbEaxImmz p) d := fun _ => rfl
    ⟨rfl, fun c => (e _).trans (fmtImmz_encode (v := imm) (.sbbEaxImmz p) c (eq_of_beq hi))⟩

theorem andRm8R8 (p : Prefixes) (reg : Reg) (rm : Rm) : Statement (.andRm8R8 p reg rm) :=
  fun hm _ =>
    have e : ∀ d, decodeOpcode p 0x20 d = fmtRegRm p (.andRm8R8 p) d := fun _ => rfl
    ⟨rfl, fun c => (e _).trans (fmtRegRm_encode (p := p) (reg := reg) (rm := rm) (.andRm8R8 p) c hm)⟩

theorem andRmvRv (p : Prefixes) (reg : Reg) (rm : Rm) : Statement (.andRmvRv p reg rm) :=
  fun hm _ =>
    have e : ∀ d, decodeOpcode p 0x21 d = fmtRegRm p (.andRmvRv p) d := fun _ => rfl
    ⟨rfl, fun c => (e _).trans (fmtRegRm_encode (p := p) (reg := reg) (rm := rm) (.andRmvRv p) c hm)⟩

theorem andR8Rm8 (p : Prefixes) (reg : Reg) (rm : Rm) : Statement (.andR8Rm8 p reg rm) :=
  fun hm _ =>
    have e : ∀ d, decodeOpcode p 0x22 d = fmtRegRm p (.andR8Rm8 p) d := fun _ => rfl
    ⟨rfl, fun c => (e _).trans (fmtRegRm_encode (p := p) (reg := reg) (rm := rm) (.andR8Rm8 p) c hm)⟩

theorem andRvRmv (p : Prefixes) (reg : Reg) (rm : Rm) : Statement (.andRvRmv p reg rm) :=
  fun hm _ =>
    have e : ∀ d, decodeOpcode p 0x23 d = fmtRegRm p (.andRvRmv p) d := fun _ => rfl
    ⟨rfl, fun c => (e _).trans (fmtRegRm_encode (p := p) (reg := reg) (rm := rm) (.andRvRmv p) c hm)⟩

theorem andAlImm8 (p : Prefixes) (imm : BitVec 8) : Statement (.andAlImm8 p imm) :=
  fun _ _ =>
    have e : ∀ d, decodeOpcode p 0x24 d = fmtImm8 (.andAlImm8 p) d := fun _ => rfl
    ⟨rfl, fun c => (e _).trans (fmtImm8_encode (.andAlImm8 p) imm c)⟩

theorem andEaxImmz (p : Prefixes) (imm : Immz) : Statement (.andEaxImmz p imm) :=
  fun _ hi =>
    have e : ∀ d, decodeOpcode p 0x25 d = fmtImmz p.opSize (.andEaxImmz p) d := fun _ => rfl
    ⟨rfl, fun c => (e _).trans (fmtImmz_encode (v := imm) (.andEaxImmz p) c (eq_of_beq hi))⟩

theorem subRm8R8 (p : Prefixes) (reg : Reg) (rm : Rm) : Statement (.subRm8R8 p reg rm) :=
  fun hm _ =>
    have e : ∀ d, decodeOpcode p 0x28 d = fmtRegRm p (.subRm8R8 p) d := fun _ => rfl
    ⟨rfl, fun c => (e _).trans (fmtRegRm_encode (p := p) (reg := reg) (rm := rm) (.subRm8R8 p) c hm)⟩

theorem subRmvRv (p : Prefixes) (reg : Reg) (rm : Rm) : Statement (.subRmvRv p reg rm) :=
  fun hm _ =>
    have e : ∀ d, decodeOpcode p 0x29 d = fmtRegRm p (.subRmvRv p) d := fun _ => rfl
    ⟨rfl, fun c => (e _).trans (fmtRegRm_encode (p := p) (reg := reg) (rm := rm) (.subRmvRv p) c hm)⟩

theorem subR8Rm8 (p : Prefixes) (reg : Reg) (rm : Rm) : Statement (.subR8Rm8 p reg rm) :=
  fun hm _ =>
    have e : ∀ d, decodeOpcode p 0x2A d = fmtRegRm p (.subR8Rm8 p) d := fun _ => rfl
    ⟨rfl, fun c => (e _).trans (fmtRegRm_encode (p := p) (reg := reg) (rm := rm) (.subR8Rm8 p) c hm)⟩

theorem subRvRmv (p : Prefixes) (reg : Reg) (rm : Rm) : Statement (.subRvRmv p reg rm) :=
  fun hm _ =>
    have e : ∀ d, decodeOpcode p 0x2B d = fmtRegRm p (.subRvRmv p) d := fun _ => rfl
    ⟨rfl, fun c => (e _).trans (fmtRegRm_encode (p := p) (reg := reg) (rm := rm) (.subRvRmv p) c hm)⟩

theorem subAlImm8 (p : Prefixes) (imm : BitVec 8) : Statement (.subAlImm8 p imm) :=
  fun _ _ =>
    have e : ∀ d, decodeOpcode p 0x2C d = fmtImm8 (.subAlImm8 p) d := fun _ => rfl
    ⟨rfl, fun c => (e _).trans (fmtImm8_encode (.subAlImm8 p) imm c)⟩

theorem subEaxImmz (p : Prefixes) (imm : Immz) : Statement (.subEaxImmz p imm) :=
  fun _ hi =>
    have e : ∀ d, decodeOpcode p 0x2D d = fmtImmz p.opSize (.subEaxImmz p) d := fun _ => rfl
    ⟨rfl, fun c => (e _).trans (fmtImmz_encode (v := imm) (.subEaxImmz p) c (eq_of_beq hi))⟩

theorem xorRm8R8 (p : Prefixes) (reg : Reg) (rm : Rm) : Statement (.xorRm8R8 p reg rm) :=
  fun hm _ =>
    have e : ∀ d, decodeOpcode p 0x30 d = fmtRegRm p (.xorRm8R8 p) d := fun _ => rfl
    ⟨rfl, fun c => (e _).trans (fmtRegRm_encode (p := p) (reg := reg) (rm := rm) (.xorRm8R8 p) c hm)⟩

theorem xorRmvRv (p : Prefixes) (reg : Reg) (rm : Rm) : Statement (.xorRmvRv p reg rm) :=
  fun hm _ =>
    have e : ∀ d, decodeOpcode p 0x31 d = fmtRegRm p (.xorRmvRv p) d := fun _ => rfl
    ⟨rfl, fun c => (e _).trans (fmtRegRm_encode (p := p) (reg := reg) (rm := rm) (.xorRmvRv p) c hm)⟩

theorem xorR8Rm8 (p : Prefixes) (reg : Reg) (rm : Rm) : Statement (.xorR8Rm8 p reg rm) :=
  fun hm _ =>
    have e : ∀ d, decodeOpcode p 0x32 d = fmtRegRm p (.xorR8Rm8 p) d := fun _ => rfl
    ⟨rfl, fun c => (e _).trans (fmtRegRm_encode (p := p) (reg := reg) (rm := rm) (.xorR8Rm8 p) c hm)⟩

theorem xorRvRmv (p : Prefixes) (reg : Reg) (rm : Rm) : Statement (.xorRvRmv p reg rm) :=
  fun hm _ =>
    have e : ∀ d, decodeOpcode p 0x33 d = fmtRegRm p (.xorRvRmv p) d := fun _ => rfl
    ⟨rfl, fun c => (e _).trans (fmtRegRm_encode (p := p) (reg := reg) (rm := rm) (.xorRvRmv p) c hm)⟩

theorem xorAlImm8 (p : Prefixes) (imm : BitVec 8) : Statement (.xorAlImm8 p imm) :=
  fun _ _ =>
    have e : ∀ d, decodeOpcode p 0x34 d = fmtImm8 (.xorAlImm8 p) d := fun _ => rfl
    ⟨rfl, fun c => (e _).trans (fmtImm8_encode (.xorAlImm8 p) imm c)⟩

theorem xorEaxImmz (p : Prefixes) (imm : Immz) : Statement (.xorEaxImmz p imm) :=
  fun _ hi =>
    have e : ∀ d, decodeOpcode p 0x35 d = fmtImmz p.opSize (.xorEaxImmz p) d := fun _ => rfl
    ⟨rfl, fun c => (e _).trans (fmtImmz_encode (v := imm) (.xorEaxImmz p) c (eq_of_beq hi))⟩

theorem cmpRm8R8 (p : Prefixes) (reg : Reg) (rm : Rm) : Statement (.cmpRm8R8 p reg rm) :=
  fun hm _ =>
    have e : ∀ d, decodeOpcode p 0x38 d = fmtRegRm p (.cmpRm8R8 p) d := fun _ => rfl
    ⟨rfl, fun c => (e _).trans (fmtRegRm_encode (p := p) (reg := reg) (rm := rm) (.cmpRm8R8 p) c hm)⟩

theorem cmpRmvRv (p : Prefixes) (reg : Reg) (rm : Rm) : Statement (.cmpRmvRv p reg rm) :=
  fun hm _ =>
    have e : ∀ d, decodeOpcode p 0x39 d = fmtRegRm p (.cmpRmvRv p) d := fun _ => rfl
    ⟨rfl, fun c => (e _).trans (fmtRegRm_encode (p := p) (reg := reg) (rm := rm) (.cmpRmvRv p) c hm)⟩

theorem cmpR8Rm8 (p : Prefixes) (reg : Reg) (rm : Rm) : Statement (.cmpR8Rm8 p reg rm) :=
  fun hm _ =>
    have e : ∀ d, decodeOpcode p 0x3A d = fmtRegRm p (.cmpR8Rm8 p) d := fun _ => rfl
    ⟨rfl, fun c => (e _).trans (fmtRegRm_encode (p := p) (reg := reg) (rm := rm) (.cmpR8Rm8 p) c hm)⟩

theorem cmpRvRmv (p : Prefixes) (reg : Reg) (rm : Rm) : Statement (.cmpRvRmv p reg rm) :=
  fun hm _ =>
    have e : ∀ d, decodeOpcode p 0x3B d = fmtRegRm p (.cmpRvRmv p) d := fun _ => rfl
    ⟨rfl, fun c => (e _).trans (fmtRegRm_encode (p := p) (reg := reg) (rm := rm) (.cmpRvRmv p) c hm)⟩

theorem cmpAlImm8 (p : Prefixes) (imm : BitVec 8) : Statement (.cmpAlImm8 p imm) :=
  fun _ _ =>
    have e : ∀ d, decodeOpcode p 0x3C d = fmtImm8 (.cmpAlImm8 p) d := fun _ => rfl
    ⟨rfl, fun c => (e _).trans (fmtImm8_encode (.cmpAlImm8 p) imm c)⟩

theorem cmpEaxImmz (p : Prefixes) (imm : Immz) : Statement (.cmpEaxImmz p imm) :=
  fun _ hi =>
    have e : ∀ d, decodeOpcode p 0x3D d = fmtImmz p.opSize (.cmpEaxImmz p) d := fun _ => rfl
    ⟨rfl, fun c => (e _).trans (fmtImmz_encode (v := imm) (.cmpEaxImmz p) c (eq_of_beq hi))⟩

theorem addRm8Imm8 (p : Prefixes) (al : Opcode80) (rm : Rm) (imm : BitVec 8) : Statement (.addRm8Imm8 p al rm imm) := by
  cases al with
  | op80 => exact fun hm _ =>
      have e : ∀ d, decodeOpcode p 0x80 d = group80 p .op80 d := fun _ => rfl
      ⟨rfl, fun c => (e _).trans ((group80_packByte p .op80 _ 0#3 _ _).trans (fmtRmImm8_encode (p := p) (rm := rm) 0#3 (.addRm8Imm8 p .op80) imm c hm))⟩
  | op82 => exact fun hm _ =>
      have e : ∀ d, decodeOpcode p 0x82 d = group80 p .op82 d := fun _ => rfl
      ⟨rfl, fun c => (e _).trans ((group80_packByte p .op82 _ 0#3 _ _).trans (fmtRmImm8_encode (p := p) (rm := rm) 0#3 (.addRm8Imm8 p .op82) imm c hm))⟩

theorem addRmvImmz (p : Prefixes) (rm : Rm) (imm : Immz) : Statement (.addRmvImmz p rm imm) :=
  fun hm hi =>
    have e : ∀ d, decodeOpcode p 0x81 d = group81 p d := fun _ => rfl
    ⟨rfl, fun c => (e _).trans ((group81_packByte p _ 0#3 _ _).trans (fmtRmImmz_encode (p := p) (rm := rm) (v := imm) 0#3 (.addRmvImmz p) c hm (eq_of_beq hi)))⟩

theorem addRmvImm8 (p : Prefixes) (rm : Rm) (imm : BitVec 8) : Statement (.addRmvImm8 p rm imm) :=
  fun hm _ =>
    have e : ∀ d, decodeOpcode p 0x83 d = group83 p d := fun _ => rfl
    ⟨rfl, fun c => (e _).trans ((group83_packByte p _ 0#3 _ _).trans (fmtRmImm8_encode (p := p) (rm := rm) 0#3 (.addRmvImm8 p) imm c hm))⟩

theorem orRm8Imm8 (p : Prefixes) (al : Opcode80) (rm : Rm) (imm : BitVec 8) : Statement (.orRm8Imm8 p al rm imm) := by
  cases al with
  | op80 => exact fun hm _ =>
      have e : ∀ d, decodeOpcode p 0x80 d = group80 p .op80 d := fun _ => rfl
      ⟨rfl, fun c => (e _).trans ((group80_packByte p .op80 _ 1#3 _ _).trans (fmtRmImm8_encode (p := p) (rm := rm) 1#3 (.orRm8Imm8 p .op80) imm c hm))⟩
  | op82 => exact fun hm _ =>
      have e : ∀ d, decodeOpcode p 0x82 d = group80 p .op82 d := fun _ => rfl
      ⟨rfl, fun c => (e _).trans ((group80_packByte p .op82 _ 1#3 _ _).trans (fmtRmImm8_encode (p := p) (rm := rm) 1#3 (.orRm8Imm8 p .op82) imm c hm))⟩

theorem orRmvImmz (p : Prefixes) (rm : Rm) (imm : Immz) : Statement (.orRmvImmz p rm imm) :=
  fun hm hi =>
    have e : ∀ d, decodeOpcode p 0x81 d = group81 p d := fun _ => rfl
    ⟨rfl, fun c => (e _).trans ((group81_packByte p _ 1#3 _ _).trans (fmtRmImmz_encode (p := p) (rm := rm) (v := imm) 1#3 (.orRmvImmz p) c hm (eq_of_beq hi)))⟩

theorem orRmvImm8 (p : Prefixes) (rm : Rm) (imm : BitVec 8) : Statement (.orRmvImm8 p rm imm) :=
  fun hm _ =>
    have e : ∀ d, decodeOpcode p 0x83 d = group83 p d := fun _ => rfl
    ⟨rfl, fun c => (e _).trans ((group83_packByte p _ 1#3 _ _).trans (fmtRmImm8_encode (p := p) (rm := rm) 1#3 (.orRmvImm8 p) imm c hm))⟩

theorem adcRm8Imm8 (p : Prefixes) (al : Opcode80) (rm : Rm) (imm : BitVec 8) : Statement (.adcRm8Imm8 p al rm imm) := by
  cases al with
  | op80 => exact fun hm _ =>
      have e : ∀ d, decodeOpcode p 0x80 d = group80 p .op80 d := fun _ => rfl
      ⟨rfl, fun c => (e _).trans ((group80_packByte p .op80 _ 2#3 _ _).trans (fmtRmImm8_encode (p := p) (rm := rm) 2#3 (.adcRm8Imm8 p .op80) imm c hm))⟩
  | op82 => exact fun hm _ =>
      have e : ∀ d, decodeOpcode p 0x82 d = group80 p .op82 d := fun _ => rfl
      ⟨rfl, fun c => (e _).trans ((group80_packByte p .op82 _ 2#3 _ _).trans (fmtRmImm8_encode (p := p) (rm := rm) 2#3 (.adcRm8Imm8 p .op82) imm c hm))⟩

theorem adcRmvImmz (p : Prefixes) (rm : Rm) (imm : Immz) : Statement (.adcRmvImmz p rm imm) :=
  fun hm hi =>
    have e : ∀ d, decodeOpcode p 0x81 d = group81 p d := fun _ => rfl
    ⟨rfl, fun c => (e _).trans ((group81_packByte p _ 2#3 _ _).trans (fmtRmImmz_encode (p := p) (rm := rm) (v := imm) 2#3 (.adcRmvImmz p) c hm (eq_of_beq hi)))⟩

theorem adcRmvImm8 (p : Prefixes) (rm : Rm) (imm : BitVec 8) : Statement (.adcRmvImm8 p rm imm) :=
  fun hm _ =>
    have e : ∀ d, decodeOpcode p 0x83 d = group83 p d := fun _ => rfl
    ⟨rfl, fun c => (e _).trans ((group83_packByte p _ 2#3 _ _).trans (fmtRmImm8_encode (p := p) (rm := rm) 2#3 (.adcRmvImm8 p) imm c hm))⟩

theorem sbbRm8Imm8 (p : Prefixes) (al : Opcode80) (rm : Rm) (imm : BitVec 8) : Statement (.sbbRm8Imm8 p al rm imm) := by
  cases al with
  | op80 => exact fun hm _ =>
      have e : ∀ d, decodeOpcode p 0x80 d = group80 p .op80 d := fun _ => rfl
      ⟨rfl, fun c => (e _).trans ((group80_packByte p .op80 _ 3#3 _ _).trans (fmtRmImm8_encode (p := p) (rm := rm) 3#3 (.sbbRm8Imm8 p .op80) imm c hm))⟩
  | op82 => exact fun hm _ =>
      have e : ∀ d, decodeOpcode p 0x82 d = group80 p .op82 d := fun _ => rfl
      ⟨rfl, fun c => (e _).trans ((group80_packByte p .op82 _ 3#3 _ _).trans (fmtRmImm8_encode (p := p) (rm := rm) 3#3 (.sbbRm8Imm8 p .op82) imm c hm))⟩

theorem sbbRmvImmz (p : Prefixes) (rm : Rm) (imm : Immz) : Statement (.sbbRmvImmz p rm imm) :=
  fun hm hi =>
    have e : ∀ d, decodeOpcode p 0x81 d = group81 p d := fun _ => rfl
    ⟨rfl, fun c => (e _).trans ((group81_packByte p _ 3#3 _ _).trans (fmtRmImmz_encode (p := p) (rm := rm) (v := imm) 3#3 (.sbbRmvImmz p) c hm (eq_of_beq hi)))⟩

theorem sbbRmvImm8 (p : Prefixes) (rm : Rm) (imm : BitVec 8) : Statement (.sbbRmvImm8 p rm imm) :=
  fun hm _ =>
    have e : ∀ d, decodeOpcode p 0x83 d = group83 p d := fun _ => rfl
    ⟨rfl, fun c => (e _).trans ((group83_packByte p _ 3#3 _ _).trans (fmtRmImm8_encode (p := p) (rm := rm) 3#3 (.sbbRmvImm8 p) imm c hm))⟩

theorem andRm8Imm8 (p : Prefixes) (al : Opcode80) (rm : Rm) (imm : BitVec 8) : Statement (.andRm8Imm8 p al rm imm) := by
  cases al with
  | op80 => exact fun hm _ =>
      have e : ∀ d, decodeOpcode p 0x80 d = group80 p .op80 d := fun _ => rfl
      ⟨rfl, fun c => (e _).trans ((group80_packByte p .op80 _ 4#3 _ _).trans (fmtRmImm8_encode (p := p) (rm := rm) 4#3 (.andRm8Imm8 p .op80) imm c hm))⟩
  | op82 => exact fun hm _ =>
      have e : ∀ d, decodeOpcode p 0x82 d = group80 p .op82 d := fun _ => rfl
      ⟨rfl, fun c => (e _).trans ((group80_packByte p .op82 _ 4#3 _ _).trans (fmtRmImm8_encode (p := p) (rm := rm) 4#3 (.andRm8Imm8 p .op82) imm c hm))⟩

theorem andRmvImmz (p : Prefixes) (rm : Rm) (imm : Immz) : Statement (.andRmvImmz p rm imm) :=
  fun hm hi =>
    have e : ∀ d, decodeOpcode p 0x81 d = group81 p d := fun _ => rfl
    ⟨rfl, fun c => (e _).trans ((group81_packByte p _ 4#3 _ _).trans (fmtRmImmz_encode (p := p) (rm := rm) (v := imm) 4#3 (.andRmvImmz p) c hm (eq_of_beq hi)))⟩

theorem andRmvImm8 (p : Prefixes) (rm : Rm) (imm : BitVec 8) : Statement (.andRmvImm8 p rm imm) :=
  fun hm _ =>
    have e : ∀ d, decodeOpcode p 0x83 d = group83 p d := fun _ => rfl
    ⟨rfl, fun c => (e _).trans ((group83_packByte p _ 4#3 _ _).trans (fmtRmImm8_encode (p := p) (rm := rm) 4#3 (.andRmvImm8 p) imm c hm))⟩

theorem subRm8Imm8 (p : Prefixes) (al : Opcode80) (rm : Rm) (imm : BitVec 8) : Statement (.subRm8Imm8 p al rm imm) := by
  cases al with
  | op80 => exact fun hm _ =>
      have e : ∀ d, decodeOpcode p 0x80 d = group80 p .op80 d := fun _ => rfl
      ⟨rfl, fun c => (e _).trans ((group80_packByte p .op80 _ 5#3 _ _).trans (fmtRmImm8_encode (p := p) (rm := rm) 5#3 (.subRm8Imm8 p .op80) imm c hm))⟩
  | op82 => exact fun hm _ =>
      have e : ∀ d, decodeOpcode p 0x82 d = group80 p .op82 d := fun _ => rfl
      ⟨rfl, fun c => (e _).trans ((group80_packByte p .op82 _ 5#3 _ _).trans (fmtRmImm8_encode (p := p) (rm := rm) 5#3 (.subRm8Imm8 p .op82) imm c hm))⟩

theorem subRmvImmz (p : Prefixes) (rm : Rm) (imm : Immz) : Statement (.subRmvImmz p rm imm) :=
  fun hm hi =>
    have e : ∀ d, decodeOpcode p 0x81 d = group81 p d := fun _ => rfl
    ⟨rfl, fun c => (e _).trans ((group81_packByte p _ 5#3 _ _).trans (fmtRmImmz_encode (p := p) (rm := rm) (v := imm) 5#3 (.subRmvImmz p) c hm (eq_of_beq hi)))⟩

theorem subRmvImm8 (p : Prefixes) (rm : Rm) (imm : BitVec 8) : Statement (.subRmvImm8 p rm imm) :=
  fun hm _ =>
    have e : ∀ d, decodeOpcode p 0x83 d = group83 p d := fun _ => rfl
    ⟨rfl, fun c => (e _).trans ((group83_packByte p _ 5#3 _ _).trans (fmtRmImm8_encode (p := p) (rm := rm) 5#3 (.subRmvImm8 p) imm c hm))⟩

theorem xorRm8Imm8 (p : Prefixes) (al : Opcode80) (rm : Rm) (imm : BitVec 8) : Statement (.xorRm8Imm8 p al rm imm) := by
  cases al with
  | op80 => exact fun hm _ =>
      have e : ∀ d, decodeOpcode p 0x80 d = group80 p .op80 d := fun _ => rfl
      ⟨rfl, fun c => (e _).trans ((group80_packByte p .op80 _ 6#3 _ _).trans (fmtRmImm8_encode (p := p) (rm := rm) 6#3 (.xorRm8Imm8 p .op80) imm c hm))⟩
  | op82 => exact fun hm _ =>
      have e : ∀ d, decodeOpcode p 0x82 d = group80 p .op82 d := fun _ => rfl
      ⟨rfl, fun c => (e _).trans ((group80_packByte p .op82 _ 6#3 _ _).trans (fmtRmImm8_encode (p := p) (rm := rm) 6#3 (.xorRm8Imm8 p .op82) imm c hm))⟩

theorem xorRmvImmz (p : Prefixes) (rm : Rm) (imm : Immz) : Statement (.xorRmvImmz p rm imm) :=
  fun hm hi =>
    have e : ∀ d, decodeOpcode p 0x81 d = group81 p d := fun _ => rfl
    ⟨rfl, fun c => (e _).trans ((group81_packByte p _ 6#3 _ _).trans (fmtRmImmz_encode (p := p) (rm := rm) (v := imm) 6#3 (.xorRmvImmz p) c hm (eq_of_beq hi)))⟩

theorem xorRmvImm8 (p : Prefixes) (rm : Rm) (imm : BitVec 8) : Statement (.xorRmvImm8 p rm imm) :=
  fun hm _ =>
    have e : ∀ d, decodeOpcode p 0x83 d = group83 p d := fun _ => rfl
    ⟨rfl, fun c => (e _).trans ((group83_packByte p _ 6#3 _ _).trans (fmtRmImm8_encode (p := p) (rm := rm) 6#3 (.xorRmvImm8 p) imm c hm))⟩

theorem cmpRm8Imm8 (p : Prefixes) (al : Opcode80) (rm : Rm) (imm : BitVec 8) : Statement (.cmpRm8Imm8 p al rm imm) := by
  cases al with
  | op80 => exact fun hm _ =>
      have e : ∀ d, decodeOpcode p 0x80 d = group80 p .op80 d := fun _ => rfl
      ⟨rfl, fun c => (e _).trans ((group80_packByte p .op80 _ 7#3 _ _).trans (fmtRmImm8_encode (p := p) (rm := rm) 7#3 (.cmpRm8Imm8 p .op80) imm c hm))⟩
  | op82 => exact fun hm _ =>
      have e : ∀ d, decodeOpcode p 0x82 d = group80 p .op82 d := fun _ => rfl
      ⟨rfl, fun c => (e _).trans ((group80_packByte p .op82 _ 7#3 _ _).trans (fmtRmImm8_encode (p := p) (rm := rm) 7#3 (.cmpRm8Imm8 p .op82) imm c hm))⟩

theorem cmpRmvImmz (p : Prefixes) (rm : Rm) (imm : Immz) : Statement (.cmpRmvImmz p rm imm) :=
  fun hm hi =>
    have e : ∀ d, decodeOpcode p 0x81 d = group81 p d := fun _ => rfl
    ⟨rfl, fun c => (e _).trans ((group81_packByte p _ 7#3 _ _).trans (fmtRmImmz_encode (p := p) (rm := rm) (v := imm) 7#3 (.cmpRmvImmz p) c hm (eq_of_beq hi)))⟩

theorem cmpRmvImm8 (p : Prefixes) (rm : Rm) (imm : BitVec 8) : Statement (.cmpRmvImm8 p rm imm) :=
  fun hm _ =>
    have e : ∀ d, decodeOpcode p 0x83 d = group83 p d := fun _ => rfl
    ⟨rfl, fun c => (e _).trans ((group83_packByte p _ 7#3 _ _).trans (fmtRmImm8_encode (p := p) (rm := rm) 7#3 (.cmpRmvImm8 p) imm c hm))⟩

theorem incRv (p : Prefixes) (r : Reg) : Statement (.incRv p r) :=
  fun _ _ =>
    have e : ∀ d, decodeOpcode p (opReg 0x40 r) d = fmtNone (.incRv p r) d := fun _ => by cases r <;> rfl
    ⟨by cases r <;> rfl, e⟩

theorem decRv (p : Prefixes) (r : Reg) : Statement (.decRv p r) :=
  fun _ _ =>
    have e : ∀ d, decodeOpcode p (opReg 0x48 r) d = fmtNone (.decRv p r) d := fun _ => by cases r <;> rfl
    ⟨by cases r <;> rfl, e⟩

theorem pushRv (p : Prefixes) (r : Reg) : Statement (.pushRv p r) :=
  fun _ _ =>
    have e : ∀ d, decodeOpcode p (opReg 0x50 r) d = fmtNone (.pushRv p r) d := fun _ => by cases r <;> rfl
    ⟨by cases r <;> rfl, e⟩

theorem popRv (p : Prefixes) (r : Reg) : Statement (.popRv p r) :=
  fun _ _ =>
    have e : ∀ d, decodeOpcode p (opReg 0x58 r) d = fmtNone (.popRv p r) d := fun _ => by cases r <;> rfl
    ⟨by cases r <;> rfl, e⟩

theorem pushImmz (p : Prefixes) (imm : Immz) : Statement (.pushImmz p imm) :=
  fun _ hi =>
    have e : ∀ d, decodeOpcode p 0x68 d = fmtImmz p.opSize (.pushImmz p) d := fun _ => rfl
    ⟨rfl, fun c => (e _).trans (fmtImmz_encode (v := imm) (.pushImmz p) c (eq_of_beq hi))⟩

theorem imulRvRmvImmz (p : Prefixes) (reg : Reg) (rm : Rm) (imm : Immz) : Statement (.imulRvRmvImmz p reg rm imm) :=
  fun hm hi =>
    have e : ∀ d, decodeOpcode p 0x69 d = fmtRegRmImmz p (.imulRvRmvImmz p) d := fun _ => rfl
    ⟨rfl, fun c => (e _).trans (fmtRegRmImmz_encode (p := p) (reg := reg) (rm := rm) (v := imm) (.imulRvRmvImmz p) c hm (eq_of_beq hi))⟩

theorem pushImm8 (p : Prefixes) (imm : BitVec 8) : Statement (.pushImm8 p imm) :=
  fun _ _ =>
    have e : ∀ d, decodeOpcode p 0x6A d = fmtImm8 (.pushImm8 p) d := fun _ => rfl
    ⟨rfl, fun c => (e _).trans (fmtImm8_encode (.pushImm8 p) imm c)⟩

theorem imulRvRmvImm8 (p : Prefixes) (reg : Reg) (rm : Rm) (imm : BitVec 8) : Statement (.imulRvRmvImm8 p reg rm imm) :=
  fun hm _ =>
    have e : ∀ d, decodeOpcode p 0x6B d = fmtRegRmImm8 p (.imulRvRmvImm8 p) d := fun _ => rfl
    ⟨rfl, fun c => (e _).trans (fmtRegRmImm8_encode (p := p) (reg := reg) (rm := rm) (.imulRvRmvImm8 p) imm c hm)⟩

theorem jccRel8 (p : Prefixes) (cc : Cond) (rel : BitVec 8) : Statement (.jccRel8 p cc rel) :=
  fun _ _ =>
    have e : ∀ d, decodeOpcode p (opCond 0x70 cc) d = fmtImm8 (.jccRel8 p cc) d := fun _ => by cases cc <;> rfl
    ⟨by cases cc <;> rfl, fun c => (e _).trans (fmtImm8_encode (.jccRel8 p cc) rel c)⟩

theorem testRm8R8 (p : Prefixes) (reg : Reg) (rm : Rm) : Statement (.testRm8R8 p reg rm) :=
  fun hm _ =>
    have e : ∀ d, decodeOpcode p 0x84 d = fmtRegRm p (.testRm8R8 p) d := fun _ => rfl
    ⟨rfl, fun c => (e _).trans (fmtRegRm_encode (p := p) (reg := reg) (rm := rm) (.testRm8R8 p) c hm)⟩

theorem testRmvRv (p : Prefixes) (reg : Reg) (rm : Rm) : Statement (.testRmvRv p reg rm) :=
  fun hm _ =>
    have e : ∀ d, decodeOpcode p 0x85 d = fmtRegRm p (.testRmvRv p) d := fun _ => rfl
    ⟨rfl, fun c => (e _).trans (fmtRegRm_encode (p := p) (reg := reg) (rm := rm) (.testRmvRv p) c hm)⟩

theorem xchgRm8R8 (p : Prefixes) (reg : Reg) (rm : Rm) : Statement (.xchgRm8R8 p reg rm) :=
  fun hm _ =>
    have e : ∀ d, decodeOpcode p 0x86 d = fmtRegRm p (.xchgRm8R8 p) d := fun _ => rfl
    ⟨rfl, fun c => (e _).trans (fmtRegRm_encode (p := p) (reg := reg) (rm := rm) (.xchgRm8R8 p) c hm)⟩

theorem xchgRmvRv (p : Prefixes) (reg : Reg) (rm : Rm) : Statement (.xchgRmvRv p reg rm) :=
  fun hm _ =>
    have e : ∀ d, decodeOpcode p 0x87 d = fmtRegRm p (.xchgRmvRv p) d := fun _ => rfl
    ⟨rfl, fun c => (e _).trans (fmtRegRm_encode (p := p) (reg := reg) (rm := rm) (.xchgRmvRv p) c hm)⟩

theorem movRm8R8 (p : Prefixes) (reg : Reg) (rm : Rm) : Statement (.movRm8R8 p reg rm) :=
  fun hm _ =>
    have e : ∀ d, decodeOpcode p 0x88 d = fmtRegRm p (.movRm8R8 p) d := fun _ => rfl
    ⟨rfl, fun c => (e _).trans (fmtRegRm_encode (p := p) (reg := reg) (rm := rm) (.movRm8R8 p) c hm)⟩

theorem movRmvRv (p : Prefixes) (reg : Reg) (rm : Rm) : Statement (.movRmvRv p reg rm) :=
  fun hm _ =>
    have e : ∀ d, decodeOpcode p 0x89 d = fmtRegRm p (.movRmvRv p) d := fun _ => rfl
    ⟨rfl, fun c => (e _).trans (fmtRegRm_encode (p := p) (reg := reg) (rm := rm) (.movRmvRv p) c hm)⟩

theorem movR8Rm8 (p : Prefixes) (reg : Reg) (rm : Rm) : Statement (.movR8Rm8 p reg rm) :=
  fun hm _ =>
    have e : ∀ d, decodeOpcode p 0x8A d = fmtRegRm p (.movR8Rm8 p) d := fun _ => rfl
    ⟨rfl, fun c => (e _).trans (fmtRegRm_encode (p := p) (reg := reg) (rm := rm) (.movR8Rm8 p) c hm)⟩

theorem movRvRmv (p : Prefixes) (reg : Reg) (rm : Rm) : Statement (.movRvRmv p reg rm) :=
  fun hm _ =>
    have e : ∀ d, decodeOpcode p 0x8B d = fmtRegRm p (.movRvRmv p) d := fun _ => rfl
    ⟨rfl, fun c => (e _).trans (fmtRegRm_encode (p := p) (reg := reg) (rm := rm) (.movRvRmv p) c hm)⟩

theorem leaRvM (p : Prefixes) (reg : Reg) (m : MemForm) : Statement (.leaRvM p reg m) :=
  fun hm _ =>
    have e : ∀ d, decodeOpcode p 0x8D d = fmtLea p (.leaRvM p) d := fun _ => rfl
    ⟨rfl, fun c => (e _).trans (fmtLea_encode (p := p) (reg := reg) (m := m) (.leaRvM p) c hm)⟩

theorem nop (p : Prefixes) : Statement (.nop p) :=
  fun _ _ =>
    have e : ∀ d, decodeOpcode p 0x90 d = fmtNone (.nop p) d := fun _ => rfl
    ⟨rfl, e⟩

theorem xchgEaxEcx (p : Prefixes) : Statement (.xchgEaxEcx p) :=
  fun _ _ =>
    have e : ∀ d, decodeOpcode p 0x91 d = fmtNone (.xchgEaxEcx p) d := fun _ => rfl
    ⟨rfl, e⟩

theorem xchgEaxEdx (p : Prefixes) : Statement (.xchgEaxEdx p) :=
  fun _ _ =>
    have e : ∀ d, decodeOpcode p 0x92 d = fmtNone (.xchgEaxEdx p) d := fun _ => rfl
    ⟨rfl, e⟩

theorem xchgEaxEbx (p : Prefixes) : Statement (.xchgEaxEbx p) :=
  fun _ _ =>
    have e : ∀ d, decodeOpcode p 0x93 d = fmtNone (.xchgEaxEbx p) d := fun _ => rfl
    ⟨rfl, e⟩

theorem xchgEaxEsp (p : Prefixes) : Statement (.xchgEaxEsp p) :=
  fun _ _ =>
    have e : ∀ d, decodeOpcode p 0x94 d = fmtNone (.xchgEaxEsp p) d := fun _ => rfl
    ⟨rfl, e⟩

theorem xchgEaxEbp (p : Prefixes) : Statement (.xchgEaxEbp p) :=
  fun _ _ =>
    have e : ∀ d, decodeOpcode p 0x95 d = fmtNone (.xchgEaxEbp p) d := fun _ => rfl
    ⟨rfl, e⟩

theorem xchgEaxEsi (p : Prefixes) : Statement (.xchgEaxEsi p) :=
  fun _ _ =>
    have e : ∀ d, decodeOpcode p 0x96 d = fmtNone (.xchgEaxEsi p) d := fun _ => rfl
    ⟨rfl, e⟩

theorem xchgEaxEdi (p : Prefixes) : Statement (.xchgEaxEdi p) :=
  fun _ _ =>
    have e : ∀ d, decodeOpcode p 0x97 d = fmtNone (.xchgEaxEdi p) d := fun _ => rfl
    ⟨rfl, e⟩

theorem cbwCwde (p : Prefixes) : Statement (.cbwCwde p) :=
  fun _ _ =>
    have e : ∀ d, decodeOpcode p 0x98 d = fmtNone (.cbwCwde p) d := fun _ => rfl
    ⟨rfl, e⟩

theorem cwdCdq (p : Prefixes) : Statement (.cwdCdq p) :=
  fun _ _ =>
    have e : ∀ d, decodeOpcode p 0x99 d = fmtNone (.cwdCdq p) d := fun _ => rfl
    ⟨rfl, e⟩

theorem movAlMoffs8 (p : Prefixes) (off : Immz) : Statement (.movAlMoffs8 p off) :=
  fun _ hi =>
    have e : ∀ d, decodeOpcode p 0xA0 d = fmtImmz p.addrSize (.movAlMoffs8 p) d := fun _ => rfl
    ⟨rfl, fun c => (e _).trans (fmtImmz_encode (v := off) (.movAlMoffs8 p) c (eq_of_beq hi))⟩

theorem movEaxMoffsv (p : Prefixes) (off : Immz) : Statement (.movEaxMoffsv p off) :=
  fun _ hi =>
    have e : ∀ d, decodeOpcode p 0xA1 d = fmtImmz p.addrSize (.movEaxMoffsv p) d := fun _ => rfl
    ⟨rfl, fun c => (e _).trans (fmtImmz_encode (v := off) (.movEaxMoffsv p) c (eq_of_beq hi))⟩

theorem movMoffs8Al (p : Prefixes) (off : Immz) : Statement (.movMoffs8Al p off) :=
  fun _ hi =>
    have e : ∀ d, decodeOpcode p 0xA2 d = fmtImmz p.addrSize (.movMoffs8Al p) d := fun _ => rfl
    ⟨rfl, fun c => (e _).trans (fmtImmz_encode (v := off) (.movMoffs8Al p) c (eq_of_beq hi))⟩

theorem movMoffsvEax (p : Prefixes) (off : Immz) : Statement (.movMoffsvEax p off) :=
  fun _ hi =>
    have e : ∀ d, decodeOpcode p 0xA3 d = fmtImmz p.addrSize (.movMoffsvEax p) d := fun _ => rfl
    ⟨rfl, fun c => (e _).trans (fmtImmz_encode (v := off) (.movMoffsvEax p) c (eq_of_beq hi))⟩

theorem testAlImm8 (p : Prefixes) (imm : BitVec 8) : Statement (.testAlImm8 p imm) :=
  fun _ _ =>
    have e : ∀ d, decodeOpcode p 0xA8 d = fmtImm8 (.testAlImm8 p) d := fun _ => rfl
    ⟨rfl, fun c => (e _).trans (fmtImm8_encode (.testAlImm8 p) imm c)⟩

theorem testEaxImmz (p : Prefixes) (imm : Immz) : Statement (.testEaxImmz p imm) :=
  fun _ hi =>
    have e : ∀ d, decodeOpcode p 0xA9 d = fmtImmz p.opSize (.testEaxImmz p) d := fun _ => rfl
    ⟨rfl, fun c => (e _).trans (fmtImmz_encode (v := imm) (.testEaxImmz p) c (eq_of_beq hi))⟩

theorem movR8Imm8 (p : Prefixes) (r : Reg) (imm : BitVec 8) : Statement (.movR8Imm8 p r imm) :=
  fun _ _ =>
    have e : ∀ d, decodeOpcode p (opReg 0xB0 r) d = fmtImm8 (.movR8Imm8 p r) d := fun _ => by cases r <;> rfl
    ⟨by cases r <;> rfl, fun c => (e _).trans (fmtImm8_encode (.movR8Imm8 p r) imm c)⟩

theorem movRvImmz (p : Prefixes) (r : Reg) (imm : Immz) : Statement (.movRvImmz p r imm) :=
  fun _ hi =>
    have e : ∀ d, decodeOpcode p (opReg 0xB8 r) d = fmtImmz p.opSize (.movRvImmz p r) d := fun _ => by cases r <;> rfl
    ⟨by cases r <;> rfl, fun c => (e _).trans (fmtImmz_encode (v := imm) (.movRvImmz p r) c (eq_of_beq hi))⟩

theorem rolRm8Imm8 (p : Prefixes) (rm : Rm) (imm : BitVec 8) : Statement (.rolRm8Imm8 p rm imm) :=
  fun hm _ =>
    have e : ∀ d, decodeOpcode p 0xC0 d = groupC0 p d := fun _ => rfl
    ⟨rfl, fun c => (e _).trans ((groupC0_packByte p _ 0#3 _ _).trans (fmtRmImm8_encode (p := p) (rm := rm) 0#3 (.rolRm8Imm8 p) imm c hm))⟩

theorem rolRmvImm8 (p : Prefixes) (rm : Rm) (imm : BitVec 8) : Statement (.rolRmvImm8 p rm imm) :=
  fun hm _ =>
    have e : ∀ d, decodeOpcode p 0xC1 d = groupC1 p d := fun _ => rfl
    ⟨rfl, fun c => (e _).trans ((groupC1_packByte p _ 0#3 _ _).trans (fmtRmImm8_encode (p := p) (rm := rm) 0#3 (.rolRmvImm8 p) imm c hm))⟩

theorem rolRm8One (p : Prefixes) (rm : Rm) : Statement (.rolRm8One p rm) :=
  fun hm _ =>
    have e : ∀ d, decodeOpcode p 0xD0 d = groupD0 p d := fun _ => rfl
    ⟨rfl, fun c => (e _).trans ((groupD0_packByte p _ 0#3 _ _).trans (fmtRm_encode (p := p) (rm := rm) 0#3 (.rolRm8One p) c hm))⟩

theorem rolRmvOne (p : Prefixes) (rm : Rm) : Statement (.rolRmvOne p rm) :=
  fun hm _ =>
    have e : ∀ d, decodeOpcode p 0xD1 d = groupD1 p d := fun _ => rfl
    ⟨rfl, fun c => (e _).trans ((groupD1_packByte p _ 0#3 _ _).trans (fmtRm_encode (p := p) (rm := rm) 0#3 (.rolRmvOne p) c hm))⟩

theorem rolRm8Cl (p : Prefixes) (rm : Rm) : Statement (.rolRm8Cl p rm) :=
  fun hm _ =>
    have e : ∀ d, decodeOpcode p 0xD2 d = groupD2 p d := fun _ => rfl
    ⟨rfl, fun c => (e _).trans ((groupD2_packByte p _ 0#3 _ _).trans (fmtRm_encode (p := p) (rm := rm) 0#3 (.rolRm8Cl p) c hm))⟩

theorem rolRmvCl (p : Prefixes) (rm : Rm) : Statement (.rolRmvCl p rm) :=
  fun hm _ =>
    have e : ∀ d, decodeOpcode p 0xD3 d = groupD3 p d := fun _ => rfl
    ⟨rfl, fun c => (e _).trans ((groupD3_packByte p _ 0#3 _ _).trans (fmtRm_encode (p := p) (rm := rm) 0#3 (.rolRmvCl p) c hm))⟩

theorem rorRm8Imm8 (p : Prefixes) (rm : Rm) (imm : BitVec 8) : Statement (.rorRm8Imm8 p rm imm) :=
  fun hm _ =>
    have e : ∀ d, decodeOpcode p 0xC0 d = groupC0 p d := fun _ => rfl
    ⟨rfl, fun c => (e _).trans ((groupC0_packByte p _ 1#3 _ _).trans (fmtRmImm8_encode (p := p) (rm := rm) 1#3 (.rorRm8Imm8 p) imm c hm))⟩

theorem rorRmvImm8 (p : Prefixes) (rm : Rm) (imm : BitVec 8) : Statement (.rorRmvImm8 p rm imm) :=
  fun hm _ =>
    have e : ∀ d, decodeOpcode p 0xC1 d = groupC1 p d := fun _ => rfl
    ⟨rfl, fun c => (e _).trans ((groupC1_packByte p _ 1#3 _ _).trans (fmtRmImm8_encode (p := p) (rm := rm) 1#3 (.rorRmvImm8 p) imm c hm))⟩

theorem rorRm8One (p : Prefixes) (rm : Rm) : Statement (.rorRm8One p rm) :=
  fun hm _ =>
    have e : ∀ d, decodeOpcode p 0xD0 d = groupD0 p d := fun _ => rfl
    ⟨rfl, fun c => (e _).trans ((groupD0_packByte p _ 1#3 _ _).trans (fmtRm_encode (p := p) (rm := rm) 1#3 (.rorRm8One p) c hm))⟩

theorem rorRmvOne (p : Prefixes) (rm : Rm) : Statement (.rorRmvOne p rm) :=
  fun hm _ =>
    have e : ∀ d, decodeOpcode p 0xD1 d = groupD1 p d := fun _ => rfl
    ⟨rfl, fun c => (e _).trans ((groupD1_packByte p _ 1#3 _ _).trans (fmtRm_encode (p := p) (rm := rm) 1#3 (.rorRmvOne p) c hm))⟩

theorem rorRm8Cl (p : Prefixes) (rm : Rm) : Statement (.rorRm8Cl p rm) :=
  fun hm _ =>
    have e : ∀ d, decodeOpcode p 0xD2 d = groupD2 p d := fun _ => rfl
    ⟨rfl, fun c => (e _).trans ((groupD2_packByte p _ 1#3 _ _).trans (fmtRm_encode (p := p) (rm := rm) 1#3 (.rorRm8Cl p) c hm))⟩

theorem rorRmvCl (p : Prefixes) (rm : Rm) : Statement (.rorRmvCl p rm) :=
  fun hm _ =>
    have e : ∀ d, decodeOpcode p 0xD3 d = groupD3 p d := fun _ => rfl
    ⟨rfl, fun c => (e _).trans ((groupD3_packByte p _ 1#3 _ _).trans (fmtRm_encode (p := p) (rm := rm) 1#3 (.rorRmvCl p) c hm))⟩

theorem rclRm8Imm8 (p : Prefixes) (rm : Rm) (imm : BitVec 8) : Statement (.rclRm8Imm8 p rm imm) :=
  fun hm _ =>
    have e : ∀ d, decodeOpcode p 0xC0 d = groupC0 p d := fun _ => rfl
    ⟨rfl, fun c => (e _).trans ((groupC0_packByte p _ 2#3 _ _).trans (fmtRmImm8_encode (p := p) (rm := rm) 2#3 (.rclRm8Imm8 p) imm c hm))⟩

theorem rclRmvImm8 (p : Prefixes) (rm : Rm) (imm : BitVec 8) : Statement (.rclRmvImm8 p rm imm) :=
  fun hm _ =>
    have e : ∀ d, decodeOpcode p 0xC1 d = groupC1 p d := fun _ => rfl
    ⟨rfl, fun c => (e _).trans ((groupC1_packByte p _ 2#3 _ _).trans (fmtRmImm8_encode (p := p) (rm := rm) 2#3 (.rclRmvImm8 p) imm c hm))⟩

theorem rclRm8One (p : Prefixes) (rm : Rm) : Statement (.rclRm8One p rm) :=
  fun hm _ =>
    have e : ∀ d, decodeOpcode p 0xD0 d = groupD0 p d := fun _ => rfl
    ⟨rfl, fun c => (e _).trans ((groupD0_packByte p _ 2#3 _ _).trans (fmtRm_encode (p := p) (rm := rm) 2#3 (.rclRm8One p) c hm))⟩

theorem rclRmvOne (p : Prefixes) (rm : Rm) : Statement (.rclRmvOne p rm) :=
  fun hm _ =>
    have e : ∀ d, decodeOpcode p 0xD1 d = groupD1 p d := fun _ => rfl
    ⟨rfl, fun c => (e _).trans ((groupD1_packByte p _ 2#3 _ _).trans (fmtRm_encode (p := p) (rm := rm) 2#3 (.rclRmvOne p) c hm))⟩

theorem rclRm8Cl (p : Prefixes) (rm : Rm) : Statement (.rclRm8Cl p rm) :=
  fun hm _ =>
    have e : ∀ d, decodeOpcode p 0xD2 d = groupD2 p d := fun _ => rfl
    ⟨rfl, fun c => (e _).trans ((groupD2_packByte p _ 2#3 _ _).trans (fmtRm_encode (p := p) (rm := rm) 2#3 (.rclRm8Cl p) c hm))⟩

theorem rclRmvCl (p : Prefixes) (rm : Rm) : Statement (.rclRmvCl p rm) :=
  fun hm _ =>
    have e : ∀ d, decodeOpcode p 0xD3 d = groupD3 p d := fun _ => rfl
    ⟨rfl, fun c => (e _).trans ((groupD3_packByte p _ 2#3 _ _).trans (fmtRm_encode (p := p) (rm := rm) 2#3 (.rclRmvCl p) c hm))⟩

theorem rcrRm8Imm8 (p : Prefixes) (rm : Rm) (imm : BitVec 8) : Statement (.rcrRm8Imm8 p rm imm) :=
  fun hm _ =>
    have e : ∀ d, decodeOpcode p 0xC0 d = groupC0 p d := fun _ => rfl
    ⟨rfl, fun c => (e _).trans ((groupC0_packByte p _ 3#3 _ _).trans (fmtRmImm8_encode (p := p) (rm := rm) 3#3 (.rcrRm8Imm8 p) imm c hm))⟩

theorem rcrRmvImm8 (p : Prefixes) (rm : Rm) (imm : BitVec 8) : Statement (.rcrRmvImm8 p rm imm) :=
  fun hm _ =>
    have e : ∀ d, decodeOpcode p 0xC1 d = groupC1 p d := fun _ => rfl
    ⟨rfl, fun c => (e _).trans ((groupC1_packByte p _ 3#3 _ _).trans (fmtRmImm8_encode (p := p) (rm := rm) 3#3 (.rcrRmvImm8 p) imm c hm))⟩

theorem rcrRm8One (p : Prefixes) (rm : Rm) : Statement (.rcrRm8One p rm) :=
  fun hm _ =>
    have e : ∀ d, decodeOpcode p 0xD0 d = groupD0 p d := fun _ => rfl
    ⟨rfl, fun c => (e _).trans ((groupD0_packByte p _ 3#3 _ _).trans (fmtRm_encode (p := p) (rm := rm) 3#3 (.rcrRm8One p) c hm))⟩

theorem rcrRmvOne (p : Prefixes) (rm : Rm) : Statement (.rcrRmvOne p rm) :=
  fun hm _ =>
    have e : ∀ d, decodeOpcode p 0xD1 d = groupD1 p d := fun _ => rfl
    ⟨rfl, fun c => (e _).trans ((groupD1_packByte p _ 3#3 _ _).trans (fmtRm_encode (p := p) (rm := rm) 3#3 (.rcrRmvOne p) c hm))⟩

theorem rcrRm8Cl (p : Prefixes) (rm : Rm) : Statement (.rcrRm8Cl p rm) :=
  fun hm _ =>
    have e : ∀ d, decodeOpcode p 0xD2 d = groupD2 p d := fun _ => rfl
    ⟨rfl, fun c => (e _).trans ((groupD2_packByte p _ 3#3 _ _).trans (fmtRm_encode (p := p) (rm := rm) 3#3 (.rcrRm8Cl p) c hm))⟩

theorem rcrRmvCl (p : Prefixes) (rm : Rm) : Statement (.rcrRmvCl p rm) :=
  fun hm _ =>
    have e : ∀ d, decodeOpcode p 0xD3 d = groupD3 p d := fun _ => rfl
    ⟨rfl, fun c => (e _).trans ((groupD3_packByte p _ 3#3 _ _).trans (fmtRm_encode (p := p) (rm := rm) 3#3 (.rcrRmvCl p) c hm))⟩

theorem shlRm8Imm8 (p : Prefixes) (rm : Rm) (imm : BitVec 8) : Statement (.shlRm8Imm8 p rm imm) :=
  fun hm _ =>
    have e : ∀ d, decodeOpcode p 0xC0 d = groupC0 p d := fun _ => rfl
    ⟨rfl, fun c => (e _).trans ((groupC0_packByte p _ 4#3 _ _).trans (fmtRmImm8_encode (p := p) (rm := rm) 4#3 (.shlRm8Imm8 p) imm c hm))⟩

theorem shlRmvImm8 (p : Prefixes) (rm : Rm) (imm : BitVec 8) : Statement (.shlRmvImm8 p rm imm) :=
  fun hm _ =>
    have e : ∀ d, decodeOpcode p 0xC1 d = groupC1 p d := fun _ => rfl
    ⟨rfl, fun c => (e _).trans ((groupC1_packByte p _ 4#3 _ _).trans (fmtRmImm8_encode (p := p) (rm := rm) 4#3 (.shlRmvImm8 p) imm c hm))⟩

theorem shlRm8One (p : Prefixes) (rm : Rm) : Statement (.shlRm8One p rm) :=
  fun hm _ =>
    have e : ∀ d, decodeOpcode p 0xD0 d = groupD0 p d := fun _ => rfl
    ⟨rfl, fun c => (e _).trans ((groupD0_packByte p _ 4#3 _ _).trans (fmtRm_encode (p := p) (rm := rm) 4#3 (.shlRm8One p) c hm))⟩

theorem shlRmvOne (p : Prefixes) (rm : Rm) : Statement (.shlRmvOne p rm) :=
  fun hm _ =>
    have e : ∀ d, decodeOpcode p 0xD1 d = groupD1 p d := fun _ => rfl
    ⟨rfl, fun c => (e _).trans ((groupD1_packByte p _ 4#3 _ _).trans (fmtRm_encode (p := p) (rm := rm) 4#3 (.shlRmvOne p) c hm))⟩

theorem shlRm8Cl (p : Prefixes) (rm : Rm) : Statement (.shlRm8Cl p rm) :=
  fun hm _ =>
    have e : ∀ d, decodeOpcode p 0xD2 d = groupD2 p d := fun _ => rfl
    ⟨rfl, fun c => (e _).trans ((groupD2_packByte p _ 4#3 _ _).trans (fmtRm_encode (p := p) (rm := rm) 4#3 (.shlRm8Cl p) c hm))⟩

theorem shlRmvCl (p : Prefixes) (rm : Rm) : Statement (.shlRmvCl p rm) :=
  fun hm _ =>
    have e : ∀ d, decodeOpcode p 0xD3 d = groupD3 p d := fun _ => rfl
    ⟨rfl, fun c => (e _).trans ((groupD3_packByte p _ 4#3 _ _).trans (fmtRm_encode (p := p) (rm := rm) 4#3 (.shlRmvCl p) c hm))⟩

theorem shrRm8Imm8 (p : Prefixes) (rm : Rm) (imm : BitVec 8) : Statement (.shrRm8Imm8 p rm imm) :=
  fun hm _ =>
    have e : ∀ d, decodeOpcode p 0xC0 d = groupC0 p d := fun _ => rfl
    ⟨rfl, fun c => (e _).trans ((groupC0_packByte p _ 5#3 _ _).trans (fmtRmImm8_encode (p := p) (rm := rm) 5#3 (.shrRm8Imm8 p) imm c hm))⟩

theorem shrRmvImm8 (p : Prefixes) (rm : Rm) (imm : BitVec 8) : Statement (.shrRmvImm8 p rm imm) :=
  fun hm _ =>
    have e : ∀ d, decodeOpcode p 0xC1 d = groupC1 p d := fun _ => rfl
    ⟨rfl, fun c => (e _).trans ((groupC1_packByte p _ 5#3 _ _).trans (fmtRmImm8_encode (p := p) (rm := rm) 5#3 (.shrRmvImm8 p) imm c hm))⟩

theorem shrRm8One (p : Prefixes) (rm : Rm) : Statement (.shrRm8One p rm) :=
  fun hm _ =>
    have e : ∀ d, decodeOpcode p 0xD0 d = groupD0 p d := fun _ => rfl
    ⟨rfl, fun c => (e _).trans ((groupD0_packByte p _ 5#3 _ _).trans (fmtRm_encode (p := p) (rm := rm) 5#3 (.shrRm8One p) c hm))⟩

theorem shrRmvOne (p : Prefixes) (rm : Rm) : Statement (.shrRmvOne p rm) :=
  fun hm _ =>
    have e : ∀ d, decodeOpcode p 0xD1 d = groupD1 p d := fun _ => rfl
    ⟨rfl, fun c => (e _).trans ((groupD1_packByte p _ 5#3 _ _).trans (fmtRm_encode (p := p) (rm := rm) 5#3 (.shrRmvOne p) c hm))⟩

theorem shrRm8Cl (p : Prefixes) (rm : Rm) : Statement (.shrRm8Cl p rm) :=
  fun hm _ =>
    have e : ∀ d, decodeOpcode p 0xD2 d = groupD2 p d := fun _ => rfl
    ⟨rfl, fun c => (e _).trans ((groupD2_packByte p _ 5#3 _ _).trans (fmtRm_encode (p := p) (rm := rm) 5#3 (.shrRm8Cl p) c hm))⟩

theorem shrRmvCl (p : Prefixes) (rm : Rm) : Statement (.shrRmvCl p rm) :=
  fun hm _ =>
    have e : ∀ d, decodeOpcode p 0xD3 d = groupD3 p d := fun _ => rfl
    ⟨rfl, fun c => (e _).trans ((groupD3_packByte p _ 5#3 _ _).trans (fmtRm_encode (p := p) (rm := rm) 5#3 (.shrRmvCl p) c hm))⟩

theorem sarRm8Imm8 (p : Prefixes) (rm : Rm) (imm : BitVec 8) : Statement (.sarRm8Imm8 p rm imm) :=
  fun hm _ =>
    have e : ∀ d, decodeOpcode p 0xC0 d = groupC0 p d := fun _ => rfl
    ⟨rfl, fun c => (e _).trans ((groupC0_packByte p _ 7#3 _ _).trans (fmtRmImm8_encode (p := p) (rm := rm) 7#3 (.sarRm8Imm8 p) imm c hm))⟩

theorem sarRmvImm8 (p : Prefixes) (rm : Rm) (imm : BitVec 8) : Statement (.sarRmvImm8 p rm imm) :=
  fun hm _ =>
    have e : ∀ d, decodeOpcode p 0xC1 d = groupC1 p d := fun _ => rfl
    ⟨rfl, fun c => (e _).trans ((groupC1_packByte p _ 7#3 _ _).trans (fmtRmImm8_encode (p := p) (rm := rm) 7#3 (.sarRmvImm8 p) imm c hm))⟩

theorem sarRm8One (p : Prefixes) (rm : Rm) : Statement (.sarRm8One p rm) :=
  fun hm _ =>
    have e : ∀ d, decodeOpcode p 0xD0 d = groupD0 p d := fun _ => rfl
    ⟨rfl, fun c => (e _).trans ((groupD0_packByte p _ 7#3 _ _).trans (fmtRm_encode (p := p) (rm := rm) 7#3 (.sarRm8One p) c hm))⟩

theorem sarRmvOne (p : Prefixes) (rm : Rm) : Statement (.sarRmvOne p rm) :=
  fun hm _ =>
    have e : ∀ d, decodeOpcode p 0xD1 d = groupD1 p d := fun _ => rfl
    ⟨rfl, fun c => (e _).trans ((groupD1_packByte p _ 7#3 _ _).trans (fmtRm_encode (p := p) (rm := rm) 7#3 (.sarRmvOne p) c hm))⟩

theorem sarRm8Cl (p : Prefixes) (rm : Rm) : Statement (.sarRm8Cl p rm) :=
  fun hm _ =>
    have e : ∀ d, decodeOpcode p 0xD2 d = groupD2 p d := fun _ => rfl
    ⟨rfl, fun c => (e _).trans ((groupD2_packByte p _ 7#3 _ _).trans (fmtRm_encode (p := p) (rm := rm) 7#3 (.sarRm8Cl p) c hm))⟩

theorem sarRmvCl (p : Prefixes) (rm : Rm) : Statement (.sarRmvCl p rm) :=
  fun hm _ =>
    have e : ∀ d, decodeOpcode p 0xD3 d = groupD3 p d := fun _ => rfl
    ⟨rfl, fun c => (e _).trans ((groupD3_packByte p _ 7#3 _ _).trans (fmtRm_encode (p := p) (rm := rm) 7#3 (.sarRmvCl p) c hm))⟩

theorem retImm16 (p : Prefixes) (imm : BitVec 16) : Statement (.retImm16 p imm) :=
  fun _ _ =>
    have e : ∀ d, decodeOpcode p 0xC2 d = fmtImm16 (.retImm16 p) d := fun _ => rfl
    ⟨rfl, fun c => (e _).trans (fmtImm16_encode (.retImm16 p) imm c)⟩

theorem ret (p : Prefixes) : Statement (.ret p) :=
  fun _ _ =>
    have e : ∀ d, decodeOpcode p 0xC3 d = fmtNone (.ret p) d := fun _ => rfl
    ⟨rfl, e⟩

theorem movRm8Imm8 (p : Prefixes) (rm : Rm) (imm : BitVec 8) : Statement (.movRm8Imm8 p rm imm) :=
  fun hm _ =>
    have e : ∀ d, decodeOpcode p 0xC6 d = groupC6 p d := fun _ => rfl
    ⟨rfl, fun c => (e _).trans ((groupC6_packByte p _ 0#3 _ _).trans (fmtRmImm8_encode (p := p) (rm := rm) 0#3 (.movRm8Imm8 p) imm c hm))⟩

theorem movRmvImmz (p : Prefixes) (rm : Rm) (imm : Immz) : Statement (.movRmvImmz p rm imm) :=
  fun hm hi =>
    have e : ∀ d, decodeOpcode p 0xC7 d = groupC7 p d := fun _ => rfl
    ⟨rfl, fun c => (e _).trans ((groupC7_packByte p _ 0#3 _ _).trans (fmtRmImmz_encode (p := p) (rm := rm) (v := imm) 0#3 (.movRmvImmz p) c hm (eq_of_beq hi)))⟩

theorem callRelz (p : Prefixes) (rel : Immz) : Statement (.callRelz p rel) :=
  fun _ hi =>
    have e : ∀ d, decodeOpcode p 0xE8 d = fmtImmz p.opSize (.callRelz p) d := fun _ => rfl
    ⟨rfl, fun c => (e _).trans (fmtImmz_encode (v := rel) (.callRelz p) c (eq_of_beq hi))⟩

theorem jmpRelz (p : Prefixes) (rel : Immz) : Statement (.jmpRelz p rel) :=
  fun _ hi =>
    have e : ∀ d, decodeOpcode p 0xE9 d = fmtImmz p.opSize (.jmpRelz p) d := fun _ => rfl
    ⟨rfl, fun c => (e _).trans (fmtImmz_encode (v := rel) (.jmpRelz p) c (eq_of_beq hi))⟩

theorem jmpRel8 (p : Prefixes) (rel : BitVec 8) : Statement (.jmpRel8 p rel) :=
  fun _ _ =>
    have e : ∀ d, decodeOpcode p 0xEB d = fmtImm8 (.jmpRel8 p) d := fun _ => rfl
    ⟨rfl, fun c => (e _).trans (fmtImm8_encode (.jmpRel8 p) rel c)⟩

theorem hlt (p : Prefixes) : Statement (.hlt p) :=
  fun _ _ =>
    have e : ∀ d, decodeOpcode p 0xF4 d = fmtNone (.hlt p) d := fun _ => rfl
    ⟨rfl, e⟩

theorem cmc (p : Prefixes) : Statement (.cmc p) :=
  fun _ _ =>
    have e : ∀ d, decodeOpcode p 0xF5 d = fmtNone (.cmc p) d := fun _ => rfl
    ⟨rfl, e⟩

theorem testRm8Imm8 (p : Prefixes) (rm : Rm) (imm : BitVec 8) : Statement (.testRm8Imm8 p rm imm) :=
  fun hm _ =>
    have e : ∀ d, decodeOpcode p 0xF6 d = groupF6 p d := fun _ => rfl
    ⟨rfl, fun c => (e _).trans ((groupF6_packByte p _ 0#3 _ _).trans (fmtRmImm8_encode (p := p) (rm := rm) 0#3 (.testRm8Imm8 p) imm c hm))⟩

theorem testRmvImmz (p : Prefixes) (rm : Rm) (imm : Immz) : Statement (.testRmvImmz p rm imm) :=
  fun hm hi =>
    have e : ∀ d, decodeOpcode p 0xF7 d = groupF7 p d := fun _ => rfl
    ⟨rfl, fun c => (e _).trans ((groupF7_packByte p _ 0#3 _ _).trans (fmtRmImmz_encode (p := p) (rm := rm) (v := imm) 0#3 (.testRmvImmz p) c hm (eq_of_beq hi)))⟩

theorem notRm8 (p : Prefixes) (rm : Rm) : Statement (.notRm8 p rm) :=
  fun hm _ =>
    have e : ∀ d, decodeOpcode p 0xF6 d = groupF6 p d := fun _ => rfl
    ⟨rfl, fun c => (e _).trans ((groupF6_packByte p _ 2#3 _ _).trans (fmtRm_encode (p := p) (rm := rm) 2#3 (.notRm8 p) c hm))⟩

theorem notRmv (p : Prefixes) (rm : Rm) : Statement (.notRmv p rm) :=
  fun hm _ =>
    have e : ∀ d, decodeOpcode p 0xF7 d = groupF7 p d := fun _ => rfl
    ⟨rfl, fun c => (e _).trans ((groupF7_packByte p _ 2#3 _ _).trans (fmtRm_encode (p := p) (rm := rm) 2#3 (.notRmv p) c hm))⟩

theorem negRm8 (p : Prefixes) (rm : Rm) : Statement (.negRm8 p rm) :=
  fun hm _ =>
    have e : ∀ d, decodeOpcode p 0xF6 d = groupF6 p d := fun _ => rfl
    ⟨rfl, fun c => (e _).trans ((groupF6_packByte p _ 3#3 _ _).trans (fmtRm_encode (p := p) (rm := rm) 3#3 (.negRm8 p) c hm))⟩

theorem negRmv (p : Prefixes) (rm : Rm) : Statement (.negRmv p rm) :=
  fun hm _ =>
    have e : ∀ d, decodeOpcode p 0xF7 d = groupF7 p d := fun _ => rfl
    ⟨rfl, fun c => (e _).trans ((groupF7_packByte p _ 3#3 _ _).trans (fmtRm_encode (p := p) (rm := rm) 3#3 (.negRmv p) c hm))⟩

theorem mulRm8 (p : Prefixes) (rm : Rm) : Statement (.mulRm8 p rm) :=
  fun hm _ =>
    have e : ∀ d, decodeOpcode p 0xF6 d = groupF6 p d := fun _ => rfl
    ⟨rfl, fun c => (e _).trans ((groupF6_packByte p _ 4#3 _ _).trans (fmtRm_encode (p := p) (rm := rm) 4#3 (.mulRm8 p) c hm))⟩

theorem mulRmv (p : Prefixes) (rm : Rm) : Statement (.mulRmv p rm) :=
  fun hm _ =>
    have e : ∀ d, decodeOpcode p 0xF7 d = groupF7 p d := fun _ => rfl
    ⟨rfl, fun c => (e _).trans ((groupF7_packByte p _ 4#3 _ _).trans (fmtRm_encode (p := p) (rm := rm) 4#3 (.mulRmv p) c hm))⟩

theorem imulRm8 (p : Prefixes) (rm : Rm) : Statement (.imulRm8 p rm) :=
  fun hm _ =>
    have e : ∀ d, decodeOpcode p 0xF6 d = groupF6 p d := fun _ => rfl
    ⟨rfl, fun c => (e _).trans ((groupF6_packByte p _ 5#3 _ _).trans (fmtRm_encode (p := p) (rm := rm) 5#3 (.imulRm8 p) c hm))⟩

theorem imulRmv (p : Prefixes) (rm : Rm) : Statement (.imulRmv p rm) :=
  fun hm _ =>
    have e : ∀ d, decodeOpcode p 0xF7 d = groupF7 p d := fun _ => rfl
    ⟨rfl, fun c => (e _).trans ((groupF7_packByte p _ 5#3 _ _).trans (fmtRm_encode (p := p) (rm := rm) 5#3 (.imulRmv p) c hm))⟩

theorem divRm8 (p : Prefixes) (rm : Rm) : Statement (.divRm8 p rm) :=
  fun hm _ =>
    have e : ∀ d, decodeOpcode p 0xF6 d = groupF6 p d := fun _ => rfl
    ⟨rfl, fun c => (e _).trans ((groupF6_packByte p _ 6#3 _ _).trans (fmtRm_encode (p := p) (rm := rm) 6#3 (.divRm8 p) c hm))⟩

theorem divRmv (p : Prefixes) (rm : Rm) : Statement (.divRmv p rm) :=
  fun hm _ =>
    have e : ∀ d, decodeOpcode p 0xF7 d = groupF7 p d := fun _ => rfl
    ⟨rfl, fun c => (e _).trans ((groupF7_packByte p _ 6#3 _ _).trans (fmtRm_encode (p := p) (rm := rm) 6#3 (.divRmv p) c hm))⟩

theorem idivRm8 (p : Prefixes) (rm : Rm) : Statement (.idivRm8 p rm) :=
  fun hm _ =>
    have e : ∀ d, decodeOpcode p 0xF6 d = groupF6 p d := fun _ => rfl
    ⟨rfl, fun c => (e _).trans ((groupF6_packByte p _ 7#3 _ _).trans (fmtRm_encode (p := p) (rm := rm) 7#3 (.idivRm8 p) c hm))⟩

theorem idivRmv (p : Prefixes) (rm : Rm) : Statement (.idivRmv p rm) :=
  fun hm _ =>
    have e : ∀ d, decodeOpcode p 0xF7 d = groupF7 p d := fun _ => rfl
    ⟨rfl, fun c => (e _).trans ((groupF7_packByte p _ 7#3 _ _).trans (fmtRm_encode (p := p) (rm := rm) 7#3 (.idivRmv p) c hm))⟩

theorem clc (p : Prefixes) : Statement (.clc p) :=
  fun _ _ =>
    have e : ∀ d, decodeOpcode p 0xF8 d = fmtNone (.clc p) d := fun _ => rfl
    ⟨rfl, e⟩

theorem stc (p : Prefixes) : Statement (.stc p) :=
  fun _ _ =>
    have e : ∀ d, decodeOpcode p 0xF9 d = fmtNone (.stc p) d := fun _ => rfl
    ⟨rfl, e⟩

theorem incRm8 (p : Prefixes) (rm : Rm) : Statement (.incRm8 p rm) :=
  fun hm _ =>
    have e : ∀ d, decodeOpcode p 0xFE d = groupFE p d := fun _ => rfl
    ⟨rfl, fun c => (e _).trans ((groupFE_packByte p _ 0#3 _ _).trans (fmtRm_encode (p := p) (rm := rm) 0#3 (.incRm8 p) c hm))⟩

theorem decRm8 (p : Prefixes) (rm : Rm) : Statement (.decRm8 p rm) :=
  fun hm _ =>
    have e : ∀ d, decodeOpcode p 0xFE d = groupFE p d := fun _ => rfl
    ⟨rfl, fun c => (e _).trans ((groupFE_packByte p _ 1#3 _ _).trans (fmtRm_encode (p := p) (rm := rm) 1#3 (.decRm8 p) c hm))⟩

theorem incRmv (p : Prefixes) (rm : Rm) : Statement (.incRmv p rm) :=
  fun hm _ =>
    have e : ∀ d, decodeOpcode p 0xFF d = groupFF p d := fun _ => rfl
    ⟨rfl, fun c => (e _).trans ((groupFF_packByte p _ 0#3 _ _).trans (fmtRm_encode (p := p) (rm := rm) 0#3 (.incRmv p) c hm))⟩

theorem decRmv (p : Prefixes) (rm : Rm) : Statement (.decRmv p rm) :=
  fun hm _ =>
    have e : ∀ d, decodeOpcode p 0xFF d = groupFF p d := fun _ => rfl
    ⟨rfl, fun c => (e _).trans ((groupFF_packByte p _ 1#3 _ _).trans (fmtRm_encode (p := p) (rm := rm) 1#3 (.decRmv p) c hm))⟩

theorem callRmv (p : Prefixes) (rm : Rm) : Statement (.callRmv p rm) :=
  fun hm _ =>
    have e : ∀ d, decodeOpcode p 0xFF d = groupFF p d := fun _ => rfl
    ⟨rfl, fun c => (e _).trans ((groupFF_packByte p _ 2#3 _ _).trans (fmtRm_encode (p := p) (rm := rm) 2#3 (.callRmv p) c hm))⟩

theorem jmpRmv (p : Prefixes) (rm : Rm) : Statement (.jmpRmv p rm) :=
  fun hm _ =>
    have e : ∀ d, decodeOpcode p 0xFF d = groupFF p d := fun _ => rfl
    ⟨rfl, fun c => (e _).trans ((groupFF_packByte p _ 4#3 _ _).trans (fmtRm_encode (p := p) (rm := rm) 4#3 (.jmpRmv p) c hm))⟩

theorem pushRmv (p : Prefixes) (rm : Rm) : Statement (.pushRmv p rm) :=
  fun hm _ =>
    have e : ∀ d, decodeOpcode p 0xFF d = groupFF p d := fun _ => rfl
    ⟨rfl, fun c => (e _).trans ((groupFF_packByte p _ 6#3 _ _).trans (fmtRm_encode (p := p) (rm := rm) 6#3 (.pushRmv p) c hm))⟩

theorem ud2 (p : Prefixes) : Statement (.ud2 p) :=
  fun _ _ =>
    have e : ∀ d, decodeOpcode p 0x0F (.byte 0x0B :: d) = fmtNone (.ud2 p) d := fun _ => rfl
    ⟨rfl, e⟩

theorem jccRelz (p : Prefixes) (cc : Cond) (rel : Immz) : Statement (.jccRelz p cc rel) :=
  fun _ hi =>
    have e : ∀ d, decodeOpcode p 0x0F (.byte (opCond 0x80 cc) :: d) = fmtImmz p.opSize (.jccRelz p cc) d := fun _ => by cases cc <;> rfl
    ⟨rfl, fun c => (e _).trans (fmtImmz_encode (v := rel) (.jccRelz p cc) c (eq_of_beq hi))⟩

theorem setccRm8 (p : Prefixes) (cc : Cond) (ext : BitVec 3) (rm : Rm) : Statement (.setccRm8 p cc ext rm) :=
  fun hm _ =>
    have e : ∀ d, decodeOpcode p 0x0F (.byte (opCond 0x90 cc) :: d) = fmtSetcc p cc d := fun _ => by cases cc <;> rfl
    ⟨rfl, fun c => (e _).trans (fmtSetcc_encode (p := p) (rm := rm) cc ext c hm)⟩

theorem imulRvRmv (p : Prefixes) (reg : Reg) (rm : Rm) : Statement (.imulRvRmv p reg rm) :=
  fun hm _ =>
    have e : ∀ d, decodeOpcode p 0x0F (.byte 0xAF :: d) = fmtRegRm p (.imulRvRmv p) d := fun _ => rfl
    ⟨rfl, fun c => (e _).trans (fmtRegRm_encode (p := p) (reg := reg) (rm := rm) (.imulRvRmv p) c hm)⟩

theorem movzxRvRm8 (p : Prefixes) (reg : Reg) (rm : Rm) : Statement (.movzxRvRm8 p reg rm) :=
  fun hm _ =>
    have e : ∀ d, decodeOpcode p 0x0F (.byte 0xB6 :: d) = fmtRegRm p (.movzxRvRm8 p) d := fun _ => rfl
    ⟨rfl, fun c => (e _).trans (fmtRegRm_encode (p := p) (reg := reg) (rm := rm) (.movzxRvRm8 p) c hm)⟩

theorem movzxRvRm16 (p : Prefixes) (reg : Reg) (rm : Rm) : Statement (.movzxRvRm16 p reg rm) :=
  fun hm _ =>
    have e : ∀ d, decodeOpcode p 0x0F (.byte 0xB7 :: d) = fmtRegRm p (.movzxRvRm16 p) d := fun _ => rfl
    ⟨rfl, fun c => (e _).trans (fmtRegRm_encode (p := p) (reg := reg) (rm := rm) (.movzxRvRm16 p) c hm)⟩

theorem movsxRvRm8 (p : Prefixes) (reg : Reg) (rm : Rm) : Statement (.movsxRvRm8 p reg rm) :=
  fun hm _ =>
    have e : ∀ d, decodeOpcode p 0x0F (.byte 0xBE :: d) = fmtRegRm p (.movsxRvRm8 p) d := fun _ => rfl
    ⟨rfl, fun c => (e _).trans (fmtRegRm_encode (p := p) (reg := reg) (rm := rm) (.movsxRvRm8 p) c hm)⟩

theorem movsxRvRm16 (p : Prefixes) (reg : Reg) (rm : Rm) : Statement (.movsxRvRm16 p reg rm) :=
  fun hm _ =>
    have e : ∀ d, decodeOpcode p 0x0F (.byte 0xBF :: d) = fmtRegRm p (.movsxRvRm16 p) d := fun _ => rfl
    ⟨rfl, fun c => (e _).trans (fmtRegRm_encode (p := p) (reg := reg) (rm := rm) (.movsxRvRm16 p) c hm)⟩

end Sys2Proof.Laws.OpcodeReads
end

