-- ==== Sys2Proof/Laws/Reads.lean ====
section
/-! SUPPORT. Laws/Reads: the decoder's readers take exactly the bytes of what they give. `Reads f bs v` says that
f takes bs and gives v, and meets a stop that comes before their end; `Gives f P` that whatever f gives was read
from bytes that satisfy P. Both compose along the decoder's sequencing (30_encoding.md R101, R105, R112 to R128). -/

namespace Sys2Proof

/-- The reader f takes exactly the bytes bs, whatever follows them, and gives v; and a stop before their end is what
it answers. -/
structure Reads {α : Type} (f : List Cell → Except DecodeStop (α × List Cell)) (bs : List Byte) (v : α) : Prop where
  full : ∀ d, f (cells bs ++ d) = .ok (v, d)
  cut : ∀ k, k < bs.length → ∀ e d, f (cells (bs.take k) ++ .stop e :: d) = .error e

theorem take1_reads (b : Byte) : Reads take1 [b] b :=
  ⟨fun _ => rfl, fun k hk e d => by
    have : k = 0 := by simpa using hk
    subst this; rfl⟩

theorem Reads.bind {α β : Type} {f : List Cell → Except DecodeStop (α × List Cell)}
    {g : α → List Cell → Except DecodeStop (β × List Cell)} {b1 b2 : List Byte} {v : α} {w : β}
    (h1 : Reads f b1 v) (h2 : Reads (g v) b2 w) :
    Reads (fun c => (f c).bind fun x => g x.1 x.2) (b1 ++ b2) w := by
  refine ⟨fun d => ?_, fun k hk e d => ?_⟩
  · simp only [cells_append, List.append_assoc, h1.full]; exact h2.full d
  · by_cases h : k < b1.length
    · rw [List.take_append_of_le_length (by omega)]
      simp only [h1.cut k h]; rfl
    · have : (b1 ++ b2).take k = b1 ++ b2.take (k - b1.length) := by
        rw [List.take_append]
        rw [List.take_of_length_le (by omega)]
      rw [this]
      simp only [cells_append, List.append_assoc, h1.full]
      exact h2.cut _ (by simp at hk; omega) e d

theorem Reads.pure {α β : Type} {f : List Cell → Except DecodeStop (α × List Cell)} {b1 : List Byte} {v : α}
    (h1 : Reads f b1 v) (k : α → β) : Reads (fun c => (f c).bind fun x => .ok (k x.1, x.2)) b1 (k v) := by
  refine ⟨fun d => ?_, fun n hn e d => ?_⟩
  · simp only [h1.full]; rfl
  · simp only [h1.cut n hn]; rfl

theorem Reads.ret {α : Type} (v : α) : Reads (fun c => Except.ok (v, c)) [] v :=
  ⟨fun _ => rfl, fun k hk => by simp at hk⟩

/-- What the reader f gives, it read from bytes that satisfy P. -/
def Gives {α : Type} (f : List Cell → Except DecodeStop (α × List Cell)) (P : α → List Byte → Prop) : Prop :=
  ∀ c v c', f c = .ok (v, c') → ∃ bs, P v bs ∧ c = cells bs ++ c' ∧ Reads f bs v

theorem take1_gives : Gives take1 (fun v bs => bs = [v]) := by
  intro c v c' h
  match c with
  | [] => cases h
  | .stop e :: _ => cases h
  | .byte b :: c =>
    simp only [take1_byte, Except.ok.injEq, Prod.mk.injEq] at h
    obtain ⟨rfl, rfl⟩ := h
    exact ⟨[b], rfl, rfl, take1_reads b⟩

theorem Gives.bind {α β : Type} {f : List Cell → Except DecodeStop (α × List Cell)}
    {g : α → List Cell → Except DecodeStop (β × List Cell)} {P : α → List Byte → Prop} {Q : α → β → List Byte → Prop}
    (h1 : Gives f P) (h2 : ∀ v, Gives (g v) (Q v)) :
    Gives (fun c => (f c).bind fun x => g x.1 x.2) (fun w bs => ∃ v b1 b2, bs = b1 ++ b2 ∧ P v b1 ∧ Q v w b2) := by
  intro c w c'' h
  cases hf : f c with
  | error e => simp [hf, Except.bind] at h
  | ok x =>
    obtain ⟨v, c'⟩ := x
    simp only [hf, Except.bind] at h
    obtain ⟨b1, p1, rfl, r1⟩ := h1 _ _ _ hf
    obtain ⟨b2, p2, rfl, r2⟩ := h2 v _ _ _ h
    exact ⟨b1 ++ b2, ⟨v, b1, b2, rfl, p1, p2⟩, by simp, r1.bind r2⟩

theorem Gives.pure {α β : Type} {f : List Cell → Except DecodeStop (α × List Cell)} {P : α → List Byte → Prop}
    (h1 : Gives f P) (k : α → β) :
    Gives (fun c => (f c).bind fun x => .ok (k x.1, x.2)) (fun w bs => ∃ v, w = k v ∧ P v bs) := by
  intro c w c'' h
  cases hf : f c with
  | error e => simp [hf, Except.bind] at h
  | ok x =>
    obtain ⟨v, c'⟩ := x
    simp only [hf, Except.bind, Except.ok.injEq, Prod.mk.injEq] at h
    obtain ⟨rfl, rfl⟩ := h
    obtain ⟨b1, p1, rfl, r1⟩ := h1 _ _ _ hf
    exact ⟨b1, ⟨v, rfl, p1⟩, rfl, r1.pure k⟩

theorem Gives.mono {α : Type} {f : List Cell → Except DecodeStop (α × List Cell)} {P Q : α → List Byte → Prop}
    (h : Gives f P) (hpq : ∀ v bs, P v bs → Q v bs) : Gives f Q := by
  intro c v c' e
  obtain ⟨bs, p, r⟩ := h c v c' e
  exact ⟨bs, hpq _ _ p, r⟩

theorem Gives.err {α : Type} {f : List Cell → Except DecodeStop (α × List Cell)} {P : α → List Byte → Prop}
    (h : ∀ c v, f c ≠ .ok v) : Gives f P := fun c _ _ e => absurd e (h c _)


theorem bytes2_append (b0 b1 : Byte) : bytes2 (b1 ++ b0) = [b0, b1] := by
  simp only [bytes2, List.cons.injEq, and_true]
  constructor
  · apply BitVec.eq_of_getLsbD_eq; intro k hk
    rw [BitVec.getLsbD_extractLsb']
    have e := BitVec.getLsbD_append (x := b1) (y := b0) (i := 0 + k)
    rw [show decide (k < 8) = true by simpa using hk, Bool.true_and]
    refine Eq.trans e ?_
    simp [hk]
  · apply BitVec.eq_of_getLsbD_eq; intro k hk
    rw [BitVec.getLsbD_extractLsb']
    have e := BitVec.getLsbD_append (x := b1) (y := b0) (i := 8 + k)
    rw [show decide (k < 8) = true by simpa using hk, Bool.true_and]
    refine Eq.trans e ?_
    simp [show ¬(8 + k < 8) by omega, show 8 + k - 8 = k by omega]

theorem bytes4_append (b0 b1 : BitVec 16) : bytes4 (b1 ++ b0) = bytes2 b0 ++ bytes2 b1 := by
  simp only [bytes4]
  congr 2
  · apply BitVec.eq_of_getLsbD_eq; intro k hk
    rw [BitVec.getLsbD_extractLsb']
    have e := BitVec.getLsbD_append (x := b1) (y := b0) (i := 0 + k)
    rw [show decide (k < 16) = true by simpa using hk, Bool.true_and]
    refine Eq.trans e ?_
    simp [hk]
  · apply BitVec.eq_of_getLsbD_eq; intro k hk
    rw [BitVec.getLsbD_extractLsb']
    have e := BitVec.getLsbD_append (x := b1) (y := b0) (i := 16 + k)
    rw [show decide (k < 16) = true by simpa using hk, Bool.true_and]
    refine Eq.trans e ?_
    simp [show ¬(16 + k < 16) by omega, show 16 + k - 16 = k by omega]

theorem take2_gives : Gives take2 (fun v bs => bs = bytes2 v) := by
  refine Gives.mono (f := take2) (take1_gives.bind fun b0 => take1_gives.pure fun b1 => b1 ++ b0) ?_
  rintro v bs ⟨b0, _, _, rfl, rfl, b1, rfl, rfl⟩
  rw [bytes2_append]; rfl

theorem take4_gives : Gives take4 (fun v bs => bs = bytes4 v) := by
  refine Gives.mono (f := take4) (take2_gives.bind fun b0 => take2_gives.pure fun b1 => b1 ++ b0) ?_
  rintro v bs ⟨b0, _, _, rfl, rfl, b1, rfl, rfl⟩
  rw [bytes4_append]

theorem takeZ_gives (z : OpSize) : Gives (takeZ z) (fun v bs => bs = v.bytes ∧ v.opSize = z) := by
  cases z
  · have : takeZ .w16 = fun c => ((take2 c).bind fun x => .ok (.i16 x.1, x.2)) := rfl
    rw [this]
    refine (take2_gives.pure _).mono ?_
    rintro _ bs ⟨v, rfl, rfl⟩; exact ⟨rfl, rfl⟩
  · have : takeZ .w32 = fun c => ((take4 c).bind fun x => .ok (.i32 x.1, x.2)) := rfl
    rw [this]
    refine (take4_gives.pure _).mono ?_
    rintro _ bs ⟨v, rfl, rfl⟩; exact ⟨rfl, rfl⟩

theorem Gives.ret {α : Type} (v : α) : Gives (fun c => Except.ok (v, c)) (fun w bs => w = v ∧ bs = []) := by
  intro c w c' h
  simp only [Except.ok.injEq, Prod.mk.injEq] at h
  obtain ⟨rfl, rfl⟩ := h
  exact ⟨[], ⟨rfl, rfl⟩, rfl, Reads.ret _⟩

theorem readDisp16_gives (md : BitVec 2) (h3 : md ≠ 3) :
    Gives (readDisp16 md) (fun d bs => bs = d.bytes ∧ d.mod = md) := by
  have : md = 0 ∨ md = 1 ∨ md = 2 := by revert md; decide
  rcases this with rfl | rfl | rfl
  · exact (Gives.ret _).mono (by rintro _ _ ⟨rfl, rfl⟩; exact ⟨rfl, rfl⟩)
  · exact (take1_gives.pure _).mono (by rintro _ _ ⟨v, rfl, rfl⟩; exact ⟨rfl, rfl⟩)
  · exact (take2_gives.pure _).mono (by rintro _ _ ⟨v, rfl, rfl⟩; exact ⟨rfl, rfl⟩)

theorem readDisp32_gives (md : BitVec 2) (h3 : md ≠ 3) :
    Gives (readDisp32 md) (fun d bs => bs = d.bytes ∧ d.mod = md) := by
  have : md = 0 ∨ md = 1 ∨ md = 2 := by revert md; decide
  rcases this with rfl | rfl | rfl
  · exact (Gives.ret _).mono (by rintro _ _ ⟨rfl, rfl⟩; exact ⟨rfl, rfl⟩)
  · exact (take1_gives.pure _).mono (by rintro _ _ ⟨v, rfl, rfl⟩; exact ⟨rfl, rfl⟩)
  · exact (take4_gives.pure _).mono (by rintro _ _ ⟨v, rfl, rfl⟩; exact ⟨rfl, rfl⟩)

theorem packByte_fields (b : Byte) : packByte (modField b) (regField b) (rmField b) = b := by
  revert b; decide

theorem Reg.index_ofIndex (k : BitVec 3) : (Reg.ofIndex k).index = k := by revert k; decide
theorem Base16.index_ofIndex (k : BitVec 3) : (Base16.ofIndex k).index = k := by revert k; decide
theorem Scale.ss_ofBits (k : BitVec 2) : (Scale.ofBits k).ss = k := by revert k; decide

/-- `readSib` after its SIB byte. -/
def sibTail (md : BitVec 2) (b : Byte) (c : List Cell) : Except DecodeStop (MemForm × List Cell) :=
  if md = 0 ∧ rmField b = 5 then
    ((take4 c).bind fun x => .ok (.sibDirect (Scale.ofBits (modField b)) (Reg.ofIndex (regField b)) x.1, x.2))
  else
    ((readDisp32 md c).bind fun x => .ok (.sib (Scale.ofBits (modField b)) (Reg.ofIndex (regField b)) (Reg.ofIndex (rmField b)) x.1, x.2))

theorem readSib_gives (md : BitVec 2) (h3 : md ≠ 3) :
    Gives (readSib md) (fun m bs => m.wf .w32 = true ∧ m.mod = md ∧ m.rm = 4 ∧ bs = m.tail) := by
  have e0 : readSib md = fun c => ((take1 c).bind fun x => sibTail md x.1 x.2) := rfl
  rw [e0]
  refine Gives.mono (Q := fun (m : MemForm) bs => m.wf .w32 = true ∧ m.mod = md ∧ m.rm = 4 ∧ bs = m.tail)
    (Gives.bind (g := sibTail md) take1_gives
    (Q := fun b (m : MemForm) bs => m.wf .w32 = true ∧ m.mod = md ∧ m.rm = 4 ∧ b :: bs = m.tail) fun b => ?_) ?_
  · by_cases h : md = 0 ∧ rmField b = 5
    · have : sibTail md b = fun c => ((take4 c).bind fun x => .ok (.sibDirect (Scale.ofBits (modField b)) (Reg.ofIndex (regField b)) x.1, x.2)) := by
        funext c; rw [sibTail, if_pos h]
      rw [this, h.1]
      refine (take4_gives.pure _).mono ?_
      rintro _ _ ⟨d, rfl, rfl⟩
      refine ⟨rfl, rfl, rfl, ?_⟩
      simp only [MemForm.tail, Scale.ss_ofBits, Reg.index_ofIndex, ← h.2, packByte_fields]
    · have : sibTail md b = fun c => ((readDisp32 md c).bind fun x => .ok (.sib (Scale.ofBits (modField b)) (Reg.ofIndex (regField b)) (Reg.ofIndex (rmField b)) x.1, x.2)) := by
        funext c; rw [sibTail, if_neg h]
      rw [this]
      refine ((readDisp32_gives md h3).pure _).mono ?_
      rintro _ _ ⟨d, rfl, rfl, rfl⟩
      refine ⟨?_, rfl, rfl, ?_⟩
      · simp only [MemForm.wf, beq_self_eq_true, Bool.true_and, Bool.not_eq_true', Bool.and_eq_false_iff,
          beq_eq_false_iff_ne, ne_eq]
        by_cases hd : d = .none
        · subst hd
          left; intro e
          refine h ⟨rfl, ?_⟩
          rw [← Reg.index_ofIndex (rmField b), e]; rfl
        · exact .inr hd
      · simp only [MemForm.tail, Scale.ss_ofBits, Reg.index_ofIndex, packByte_fields]
  · rintro m bs ⟨b, _, b2, rfl, rfl, h1, h2, h3, h4⟩
    exact ⟨h1, h2, h3, h4⟩

theorem readMem_gives (z : OpSize) (b : Byte) (h3 : modField b ≠ 3) :
    Gives (readMem z b) (fun m bs => m.wf z = true ∧ m.mod = modField b ∧ m.rm = rmField b ∧ bs = m.tail) := by
  cases z
  · by_cases h : modField b = 0 ∧ rmField b = 6
    · have : readMem .w16 b = fun c => ((take2 c).bind fun x => .ok (.direct16 x.1, x.2)) := by
        funext c; simp only [readMem, if_pos h]; rfl
      rw [this]
      refine (take2_gives.pure _).mono ?_
      rintro _ _ ⟨d, rfl, rfl⟩
      exact ⟨rfl, h.1.symm, h.2.symm, rfl⟩
    · have : readMem .w16 b = fun c => ((readDisp16 (modField b) c).bind fun x =>
          .ok (.based16 (Base16.ofIndex (rmField b)) x.1, x.2)) := by
        funext c; simp only [readMem, h, if_false]; rfl
      rw [this]
      refine ((readDisp16_gives _ h3).pure _).mono ?_
      rintro _ _ ⟨d, rfl, rfl, hd⟩
      refine ⟨?_, hd, Base16.index_ofIndex _, rfl⟩
      simp only [MemForm.wf, beq_self_eq_true, Bool.true_and, Bool.not_eq_true', Bool.and_eq_false_iff,
          beq_eq_false_iff_ne, ne_eq]
      by_cases hn : d = .none
      · subst hn
        left; intro e
        refine h ⟨hd.symm, ?_⟩
        rw [← Base16.index_ofIndex (rmField b), e]; rfl
      · exact .inr hn
  · by_cases h4 : rmField b = 4
    · have : readMem .w32 b = readSib (modField b) := by
        funext c; simp only [readMem, h4, if_true]
      rw [this, h4]
      exact readSib_gives _ h3
    · by_cases h : modField b = 0 ∧ rmField b = 5
      · have : readMem .w32 b = fun c => ((take4 c).bind fun x => .ok (.direct32 x.1, x.2)) := by
          funext c; simp only [readMem, if_neg h4, if_pos h]; rfl
        rw [this]
        refine (take4_gives.pure _).mono ?_
        rintro _ _ ⟨d, rfl, rfl⟩
        exact ⟨rfl, h.1.symm, h.2.symm, rfl⟩
      · have : readMem .w32 b = fun c => ((readDisp32 (modField b) c).bind fun x =>
            .ok (.based32 (Reg.ofIndex (rmField b)) x.1, x.2)) := by
          funext c; simp only [readMem, h4, h, if_false]; rfl
        rw [this]
        refine ((readDisp32_gives _ h3).pure _).mono ?_
        rintro _ _ ⟨d, rfl, rfl, hd⟩
        refine ⟨?_, hd, Reg.index_ofIndex _, rfl⟩
        simp only [MemForm.wf, beq_self_eq_true, Bool.true_and, Bool.not_eq_true', Bool.and_eq_false_iff,
          beq_eq_false_iff_ne, ne_eq, Bool.and_eq_true, bne_iff_ne]
        refine ⟨?_, ?_⟩
        · intro e; apply h4
          rw [← Reg.index_ofIndex (rmField b), e]; rfl
        · by_cases hn : d = .none
          · subst hn
            left; intro e
            refine h ⟨hd.symm, ?_⟩
            rw [← Reg.index_ofIndex (rmField b), e]; rfl
          · exact .inr hn

theorem readRm_gives (z : OpSize) (b : Byte) :
    Gives (readRm z b) (fun rm bs => rm.wf z = true ∧ b = packByte rm.mod (regField b) rm.rm ∧ bs = rm.tail) := by
  by_cases h3 : modField b = 3
  · have : readRm z b = fun c => .ok (.reg (Reg.ofIndex (rmField b)), c) := by
      funext c; simp only [readRm, h3, if_true]
    rw [this]
    refine (Gives.ret _).mono ?_
    rintro _ _ ⟨rfl, rfl⟩
    refine ⟨rfl, ?_, rfl⟩
    simp only [Rm.mod, Rm.rm, Reg.index_ofIndex]
    rw [show (3 : BitVec 2) = modField b from h3.symm, packByte_fields]
  · have : readRm z b = fun c => ((readMem z b c).bind fun x => .ok (.mem x.1, x.2)) := by
      funext c; simp only [readRm, h3, if_false]; rfl
    rw [this]
    refine ((readMem_gives z b h3).pure _).mono ?_
    rintro _ _ ⟨m, rfl, h, h1, h2, rfl⟩
    exact ⟨h, by simp only [Rm.mod, Rm.rm, h1, h2, packByte_fields], rfl⟩

/-! ### The prefix loop (R106 to R110) -/

/-- The prefix loop as a reader (R106 to R110). -/
def prefixLoop (seen : Option SegReg) (c : List Cell) : Except DecodeStop ((List Prefix × Byte) × List Cell) :=
  (readPrefixes seen c).map fun x => ((x.1, x.2.1), x.2.2)

/-- The prefixes name no second override after `seen` (R108). -/
def overridesAgree : Option SegReg → List Prefix → Prop
  | _, [] => True
  | seen, .seg s :: l => (seen = none ∨ seen = some s) ∧ overridesAgree (some s) l
  | seen, .opSize :: l => overridesAgree seen l
  | seen, .addrSize :: l => overridesAgree seen l

theorem Prefix.byte_of_ofByte {b : Byte} {q : Prefix} (h : Prefix.ofByte b = some q) : b = q.byte := by
  have : ∀ b : Byte, (Prefix.ofByte b).all (fun q => decide (b = q.byte)) = true := by decide
  have := this b
  rw [h] at this
  simpa using this

theorem prefixLoop_byte (seen : Option SegReg) (q : Prefix) (d : List Cell) :
    prefixLoop seen (.byte q.byte :: d) =
      match q with
      | .seg s => if seen = none ∨ seen = some s then (prefixLoop (some s) d).map fun x => ((.seg s :: x.1.1, x.1.2), x.2)
          else .error .multipleSegmentOverride
      | .opSize => (prefixLoop seen d).map fun x => ((.opSize :: x.1.1, x.1.2), x.2)
      | .addrSize => (prefixLoop seen d).map fun x => ((.addrSize :: x.1.1, x.1.2), x.2) := by
  cases q with
  | opSize =>
    show (readPrefixes seen _).map _ = _
    simp only [readPrefixes, Prefix.ofByte_byte, prefixLoop]
    cases readPrefixes seen d <;> rfl
  | addrSize =>
    show (readPrefixes seen _).map _ = _
    simp only [readPrefixes, Prefix.ofByte_byte, prefixLoop]
    cases readPrefixes seen d <;> rfl
  | seg s =>
    show (readPrefixes seen _).map _ = _
    simp only [readPrefixes, Prefix.ofByte_byte, prefixLoop]
    split
    · cases readPrefixes (some s) d <;> rfl
    · rfl

/-- The prefix loop takes prefixes that agree and the opcode byte after them. -/
theorem prefixLoop_reads {op : Byte} (hop : endsPrefixes op = true) : ∀ (l : List Prefix) (seen : Option SegReg), overridesAgree seen l →
    Reads (prefixLoop seen) (l.map Prefix.byte ++ [op]) (l, op)
  | [], seen, _ => by
    refine ⟨fun d => ?_, fun k hk e d => ?_⟩
    · show (readPrefixes seen _).map _ = _
      rw [show (cells (List.map Prefix.byte [] ++ [op]) ++ d) = .byte op :: d from rfl, readPrefixes_opcode seen d hop]; rfl
    · have : k = 0 := by simpa using hk
      subst this; rfl
  | q :: l, seen, h => by
    have key : ∀ seen', overridesAgree seen' l → (∀ d, prefixLoop seen (.byte q.byte :: d) =
        (prefixLoop seen' d).map fun x => ((q :: x.1.1, x.1.2), x.2)) →
        Reads (prefixLoop seen) ((q :: l).map Prefix.byte ++ [op]) (q :: l, op) := by
      intro seen' h' e
      have ih := prefixLoop_reads hop l seen' h'
      refine ⟨fun d => ?_, fun k hk e' d => ?_⟩
      · rw [show cells ((q :: l).map Prefix.byte ++ [op]) ++ d = .byte q.byte :: (cells (l.map Prefix.byte ++ [op]) ++ d) from rfl,
          e, ih.full d]; rfl
      · cases k with
        | zero => rfl
        | succ k =>
          rw [show cells (((q :: l).map Prefix.byte ++ [op]).take (k + 1)) ++ .stop e' :: d =
            .byte q.byte :: (cells ((l.map Prefix.byte ++ [op]).take k) ++ .stop e' :: d) from rfl, e,
            ih.cut k (by simpa using hk)]; rfl
    cases q with
    | opSize => exact key seen h fun d => prefixLoop_byte seen .opSize d
    | addrSize => exact key seen h fun d => prefixLoop_byte seen .addrSize d
    | seg s => exact key (some s) h.2 fun d => by rw [prefixLoop_byte]; exact if_pos h.1

theorem prefixLoop_gives : ∀ (c : List Cell) (seen : Option SegReg) (x) (c' : List Cell), prefixLoop seen c = .ok (x, c') →
    endsPrefixes x.2 = true ∧ overridesAgree seen x.1 ∧ c = cells (x.1.map Prefix.byte ++ [x.2]) ++ c'
  | [], seen, x, c', h => by simp [prefixLoop, readPrefixes, Except.map] at h
  | .stop e :: _, seen, x, c', h => by simp [prefixLoop, readPrefixes, Except.map] at h
  | .byte b :: c, seen, x, c', h => by
    cases hb : Prefix.ofByte b with
    | none =>
      simp only [prefixLoop, readPrefixes, hb] at h
      split at h
      · simp [Except.map] at h
      · rename_i hn
        simp only [Except.map, Except.ok.injEq, Prod.mk.injEq] at h
        obtain ⟨rfl, rfl⟩ := h
        refine ⟨?_, trivial, rfl⟩
        simp only [not_or] at hn
        simp only [endsPrefixes, hb, beq_self_eq_true, Bool.true_and, Bool.and_eq_true, bne_iff_ne, ne_eq]
        exact ⟨⟨hn.1, hn.2.1⟩, hn.2.2⟩
    | some q =>
      have := Prefix.byte_of_ofByte hb
      subst this
      have key : ∀ seen', (prefixLoop seen' c).map (fun x => ((q :: x.1.1, x.1.2), x.2)) = .ok (x, c') →
          (∀ l, overridesAgree seen' l → overridesAgree seen (q :: l)) →
          endsPrefixes x.2 = true ∧ overridesAgree seen x.1 ∧ Cell.byte q.byte :: c = cells (x.1.map Prefix.byte ++ [x.2]) ++ c' := by
        intro seen' e hs
        cases hr : prefixLoop seen' c with
        | error _ => simp [hr, Except.map] at e
        | ok y =>
          obtain ⟨y, d⟩ := y
          simp only [hr, Except.map, Except.ok.injEq, Prod.mk.injEq] at e
          obtain ⟨rfl, rfl⟩ := e
          obtain ⟨h1, h2, h3⟩ := prefixLoop_gives c seen' y d hr
          refine ⟨h1, hs _ h2, ?_⟩
          rw [h3]; rfl
      rw [prefixLoop_byte] at h
      cases q with
      | opSize => exact key seen h fun l h => h
      | addrSize => exact key seen h fun l h => h
      | seg s =>
        by_cases hs : seen = none ∨ seen = some s
        · simp only [if_pos hs] at h
          exact key (some s) h fun l h => ⟨hs, h⟩
        · simp only [if_neg hs] at h; cases h

theorem overridesAgree_iff : ∀ (l : List Prefix) (seen : Option SegReg), overridesAgree seen l ↔
    (∀ s, .seg s ∈ l → seen = none ∨ seen = some s) ∧ ∀ s s', .seg s ∈ l → .seg s' ∈ l → s = s'
  | [], seen => by simp [overridesAgree]
  | .opSize :: l, seen => by simp [overridesAgree, overridesAgree_iff l seen]
  | .addrSize :: l, seen => by simp [overridesAgree, overridesAgree_iff l seen]
  | .seg s :: l, seen => by
    simp only [overridesAgree, overridesAgree_iff l (some s), List.mem_cons, Prefix.seg.injEq]
    constructor
    · rintro ⟨h1, h2, h3⟩
      have h4 : ∀ s', .seg s' ∈ l → s = s' := fun s' h => by simpa using h2 s' h
      refine ⟨?_, ?_⟩
      · rintro s' (rfl | h)
        · exact h1
        · rw [← h4 s' h]; exact h1
      · rintro a b (rfl | ha) (rfl | hb)
        · rfl
        · exact h4 _ hb
        · exact (h4 _ ha).symm
        · exact h3 a b ha hb
    · rintro ⟨h1, h2⟩
      exact ⟨h1 s (.inl rfl), fun s' h => .inr (by rw [h2 s s' (.inl rfl) (.inr h)]), fun a b ha hb => h2 a b (.inr ha) (.inr hb)⟩

theorem segOverride_of_mem {l : List Prefix} {s : SegReg} (h : .seg s ∈ l) : ∃ s', segOverride l = some s' := by
  induction l with
  | nil => simp at h
  | cons q l ih =>
    cases q with
    | seg s' => exact ⟨s', rfl⟩
    | opSize => exact ih (by simpa using h)
    | addrSize => exact ih (by simpa using h)

theorem Prefixes.wf_iff_overridesAgree (z : OpSize) (l : List Prefix) : (⟨z, l⟩ : Prefixes).wf = true ↔ overridesAgree none l := by
  rw [overridesAgree_iff]
  constructor
  · intro h
    exact ⟨fun _ _ => .inl rfl, fun _ _ h1 h2 => Prefixes.wf_unique h h1 h2⟩
  · rintro ⟨-, h⟩
    simp only [Prefixes.wf, List.all_eq_true]
    intro q hq
    cases q with
    | opSize => rfl
    | addrSize => rfl
    | seg s =>
      obtain ⟨s', hs⟩ := segOverride_of_mem hq
      simp only [beq_iff_eq, hs, h _ _ (segOverride_mem hs) hq]

end Sys2Proof
end

