-- ==== Sys2Proof/Laws/Regs.lean ====
section
/-! SUPPORT. Laws/Regs: what reading a register, or a view of one, gives after a write (10_state.md R31 to
R34). -/

namespace Sys2Proof.Machine

@[simp] theorem Gprs.get_set_same (g : Gprs) (r : Reg) (v : Word) : (g.set r v).get r = v := by
  cases r <;> rfl

theorem Gprs.get_set_other (g : Gprs) {r q : Reg} (v : Word) (h : q ≠ r) : (g.set r v).get q = g.get q := by
  cases r <;> cases q <;> first | rfl | exact absurd rfl h

theorem Gprs.get_set (g : Gprs) (r q : Reg) (v : Word) :
    (g.set r v).get q = if q = r then v else g.get q := by
  split
  · next h => rw [h]; exact Gprs.get_set_same g r v
  · next h => exact Gprs.get_set_other g v h

@[simp] theorem Gprs.set_get (g : Gprs) (r : Reg) : g.set r (g.get r) = g := by cases r <;> rfl

@[simp] theorem Gprs.set_set (g : Gprs) (r : Reg) (v w : Word) : (g.set r v).set r w = g.set r w := by
  cases r <;> rfl

/-- Two register files that agree on every register are equal. -/
theorem Gprs.eq_of_get {g g' : Gprs} (h : ∀ r, g.get r = g'.get r) : g = g' := by
  cases g
  cases g'
  simpa [Gprs.get] using
    And.intro (h .eax) (And.intro (h .ecx) (And.intro (h .edx) (And.intro (h .ebx) (And.intro (h .esp)
      (And.intro (h .ebp) (And.intro (h .esi) (h .edi)))))))

/-! ### Bits of the partial writes -/

theorem setLow16_getLsbD (w : Word) (v : BitVec 16) (k : Nat) :
    (setLow16 w v).getLsbD k = if k < 16 then v.getLsbD k else w.getLsbD k := by
  unfold setLow16
  rw [BitVec.getLsbD_append]
  by_cases h : k < 16
  · simp [h]
  · simp only [h, if_false, BitVec.getLsbD_extractLsb']
    by_cases h2 : k < 32
    · simp [show k - 16 < 16 by omega, show 16 + (k - 16) = k by omega]
    · simp [show ¬ k - 16 < 16 by omega, BitVec.getLsbD_of_ge w k (by omega)]

theorem setLow8_getLsbD (w : Word) (v : BitVec 8) (k : Nat) :
    (setLow8 w v).getLsbD k = if k < 8 then v.getLsbD k else w.getLsbD k := by
  unfold setLow8
  rw [BitVec.getLsbD_append]
  by_cases h : k < 8
  · simp [h]
  · simp only [h, if_false, BitVec.getLsbD_extractLsb']
    by_cases h2 : k < 32
    · simp [show k - 8 < 24 by omega, show 8 + (k - 8) = k by omega]
    · simp [show ¬ k - 8 < 24 by omega, BitVec.getLsbD_of_ge w k (by omega)]

theorem setHigh8_getLsbD (w : Word) (v : BitVec 8) (k : Nat) :
    (setHigh8 w v).getLsbD k = if 8 ≤ k ∧ k < 16 then v.getLsbD (k - 8) else w.getLsbD k := by
  unfold setHigh8
  rw [BitVec.getLsbD_append, BitVec.getLsbD_append]
  by_cases h : k < 8
  · simp [h, show ¬ (8 ≤ k ∧ k < 16) by omega]
  · by_cases h1 : k < 16
    · simp [h, show k - 8 < 8 by omega, show 8 ≤ k ∧ k < 16 by omega]
    · by_cases h2 : k < 32
      · simp [h, show ¬ k - 8 < 8 by omega, show ¬ (8 ≤ k ∧ k < 16) by omega, show k - 8 - 8 < 16 by omega,
          show 16 + (k - 8 - 8) = k by omega]
      · simp [h, show ¬ k - 8 < 8 by omega, show ¬ (8 ≤ k ∧ k < 16) by omega, show ¬ k - 8 - 8 < 16 by omega,
          BitVec.getLsbD_of_ge w k (by omega)]

theorem setLow16_low (w : Word) (v : BitVec 16) : (setLow16 w v).extractLsb' 0 16 = v := by
  apply BitVec.eq_of_getLsbD_eq
  intro k hk
  simp [setLow16_getLsbD, hk]

theorem setLow8_low (w : Word) (v : BitVec 8) : (setLow8 w v).extractLsb' 0 8 = v := by
  apply BitVec.eq_of_getLsbD_eq
  intro k hk
  simp [setLow8_getLsbD, hk]

theorem setHigh8_high (w : Word) (v : BitVec 8) : (setHigh8 w v).extractLsb' 8 8 = v := by
  apply BitVec.eq_of_getLsbD_eq
  intro k hk
  simp [setHigh8_getLsbD, hk, show ¬ 16 ≤ 8 + k by omega]

/-- A view read after it was written gives what was written. -/
@[simp] theorem Gprs.view_setView (g : Gprs) (z : Size) (r : Reg) (v : BitVec z.bits) :
    (g.setView z r v).view z r = v := by
  cases z with
  | s32 => exact Gprs.get_set_same g r v
  | s16 => exact (congrArg (·.extractLsb' 0 16) (Gprs.get_set_same g r _)).trans (setLow16_low _ v)
  | s8 =>
    refine (congrArg (·.extractLsb' (if Reg.byteHigh r then 8 else 0) 8) (Gprs.get_set_same g _ _)).trans ?_
    cases h : Reg.byteHigh r
    · exact setLow8_low _ v
    · exact setHigh8_high _ v

/-- The register a view lies in. -/
def Reg.home (z : Size) (r : Reg) : Reg :=
  match z with
  | .s8 => Reg.byteHome r
  | .s16 => r
  | .s32 => r

/-- A write through a view leaves every other register alone. -/
theorem Gprs.get_setView_other (g : Gprs) (z : Size) {r q : Reg} (v : BitVec z.bits) (h : q ≠ Reg.home z r) :
    (g.setView z r v).get q = g.get q := by
  cases z with
  | s32 => exact Gprs.get_set_other g v h
  | s16 => exact Gprs.get_set_other g _ h
  | s8 => exact Gprs.get_set_other g _ h

/-- The bit where a view begins. -/
def Reg.viewLow (z : Size) (r : Reg) : Nat :=
  match z with
  | .s8 => if Reg.byteHigh r then 8 else 0
  | .s16 => 0
  | .s32 => 0

/-- The bits of the register a view lies in, after a write through the view. -/
theorem Gprs.get_setView_bit (g : Gprs) (z : Size) (r : Reg) (v : BitVec z.bits) (k : Nat) :
    ((g.setView z r v).get (Reg.home z r)).getLsbD k =
      if Reg.viewLow z r ≤ k ∧ k < Reg.viewLow z r + z.bits then v.getLsbD (k - Reg.viewLow z r)
      else (g.get (Reg.home z r)).getLsbD k := by
  cases z with
  | s32 =>
    refine (congrArg (·.getLsbD k) (Gprs.get_set_same g r v)).trans ?_
    by_cases h : k < 32
    · rw [if_pos ⟨Nat.zero_le k, by simpa [Reg.viewLow] using h⟩]
      rfl
    · rw [if_neg (by simp [Reg.viewLow]; omega)]
      exact (BitVec.getLsbD_of_ge v k (Nat.le_of_not_lt h)).trans
        (BitVec.getLsbD_of_ge _ k (Nat.le_of_not_lt h)).symm
  | s16 =>
    refine (congrArg (·.getLsbD k) (Gprs.get_set_same g r _)).trans ((setLow16_getLsbD _ v k).trans ?_)
    by_cases h : k < 16 <;> simp [Reg.viewLow, h]
    rfl
  | s8 =>
    refine (congrArg (·.getLsbD k) (Gprs.get_set_same g _ _)).trans ?_
    cases h : Reg.byteHigh r
    · refine (setLow8_getLsbD _ v k).trans ?_
      by_cases h' : k < 8 <;> simp [Reg.viewLow, h, h']
      rfl
    · refine (setHigh8_getLsbD _ v k).trans ?_
      by_cases h' : 8 ≤ k ∧ k < 16 <;> simp [Reg.viewLow, h, h']
      rfl

/-- The stack pointer alone is written by `setSp` (45_data_move.md R318). -/
theorem Gprs.get_setView16 (g : Gprs) (r q : Reg) (v : BitVec 16) :
    (g.setView .s16 r v).get q = if q = r then setLow16 (g.get r) v else g.get q := Gprs.get_set g r q _

end Sys2Proof.Machine
end

