-- ==== Sys2Proof/Laws/Rows.lean ====
section
/-! SUPPORT. Laws/Rows: every row of the opcode maps reads the bytes of its own layout, and so does the whole
decoder: what `decodeCells` gives is well-formed but for its length and was read from its own encoding
(30_encoding.md R105, R134 to R140). -/

namespace Sys2Proof

/-- bs are the bytes after the opcode bytes of i. -/
def Fits (p : Prefixes) (two : Bool) (op : Byte) (i : Instr) (bs : List Byte) : Prop :=
  i.layout.pfx = p ∧ i.layout.two = two ∧ i.layout.op = op ∧
    (i.layout.modrm.all fun x => x.2.wf p.addrSize) = true ∧ i.layout.imm.wf p = true ∧
    bs = modrmBytes i.layout.modrm ++ i.layout.imm.bytes

section
variable {p : Prefixes} {two : Bool} {op : Byte}

theorem fits_none (i : Instr) (h : i.layout = ⟨p, two, op, none, .none⟩) : Gives (fmtNone i) (Fits p two op) := by
  refine (Gives.ret i).mono ?_
  rintro _ _ ⟨rfl, rfl⟩
  simp [Fits, h, modrmBytes, ImmField.bytes, ImmField.wf]

theorem fits_imm8 (k : BitVec 8 → Instr) (h : ∀ v, (k v).layout = ⟨p, two, op, none, .b v⟩) :
    Gives (fmtImm8 k) (Fits p two op) := by
  refine (show Gives (fmtImm8 k) _ from take1_gives.pure k).mono ?_
  rintro _ _ ⟨v, rfl, rfl⟩
  simp [Fits, h, modrmBytes, ImmField.bytes, ImmField.wf]

theorem fits_imm16 (k : BitVec 16 → Instr) (h : ∀ v, (k v).layout = ⟨p, two, op, none, .w v⟩) :
    Gives (fmtImm16 k) (Fits p two op) := by
  refine (show Gives (fmtImm16 k) _ from take2_gives.pure k).mono ?_
  rintro _ _ ⟨v, rfl, rfl⟩
  simp [Fits, h, modrmBytes, ImmField.bytes, ImmField.wf]

theorem fits_z (k : Immz → Instr) (h : ∀ v, (k v).layout = ⟨p, two, op, none, .z v⟩) :
    Gives (fmtImmz p.opSize k) (Fits p two op) := by
  refine (show Gives (fmtImmz p.opSize k) _ from (takeZ_gives _).pure k).mono ?_
  rintro _ _ ⟨v, rfl, rfl, hv⟩
  simp [Fits, h, modrmBytes, ImmField.bytes, ImmField.wf, hv]

theorem fits_m (k : Immz → Instr) (h : ∀ v, (k v).layout = ⟨p, two, op, none, .m v⟩) :
    Gives (fmtImmz p.addrSize k) (Fits p two op) := by
  refine (show Gives (fmtImmz p.addrSize k) _ from (takeZ_gives _).pure k).mono ?_
  rintro _ _ ⟨v, rfl, rfl, hv⟩
  simp [Fits, h, modrmBytes, ImmField.bytes, ImmField.wf, hv]

theorem fits_rm {b : Byte} (k : Rm → Instr) (h : ∀ rm, (k rm).layout = ⟨p, two, op, some (regField b, rm), .none⟩) :
    Gives (fmtRm p b k) (fun i bs => Fits p two op i (b :: bs)) := by
  refine (show Gives (fmtRm p b k) _ from (readRm_gives _ b).pure k).mono ?_
  rintro _ _ ⟨rm, rfl, h1, h2, rfl⟩
  simp only [Fits, h, modrmBytes, ImmField.bytes, ImmField.wf, List.append_nil, ← h2, Option.all_some, h1, and_self]

theorem fits_rmImm8 {b : Byte} (k : Rm → BitVec 8 → Instr)
    (h : ∀ rm v, (k rm v).layout = ⟨p, two, op, some (regField b, rm), .b v⟩) :
    Gives (fmtRmImm8 p b k) (fun i bs => Fits p two op i (b :: bs)) := by
  refine (show Gives (fmtRmImm8 p b k) _ from
    (readRm_gives _ b).bind fun rm => take1_gives.pure (k rm)).mono ?_
  rintro _ _ ⟨rm, _, _, rfl, ⟨h1, h2, rfl⟩, v, rfl, rfl⟩
  simp only [Fits, h, modrmBytes, ImmField.bytes, ImmField.wf, ← h2, Option.all_some, h1, and_self,
    List.cons_append]

theorem fits_rmz {b : Byte} (k : Rm → Immz → Instr)
    (h : ∀ rm v, (k rm v).layout = ⟨p, two, op, some (regField b, rm), .z v⟩) :
    Gives (fmtRmImmz p b k) (fun i bs => Fits p two op i (b :: bs)) := by
  refine (show Gives (fmtRmImmz p b k) _ from
    (readRm_gives _ b).bind fun rm => (takeZ_gives _).pure (k rm)).mono ?_
  rintro _ _ ⟨rm, _, _, rfl, ⟨h1, h2, rfl⟩, v, rfl, rfl, hv⟩
  simp only [Fits, h, modrmBytes, ImmField.bytes, ImmField.wf, ← h2, Option.all_some, h1, and_self,
    List.cons_append, hv, beq_self_eq_true]

/-- A format that reads its ModRM byte itself. -/
theorem fits_modrm {f : List Cell → Except DecodeStop (Instr × List Cell)}
    (g : Byte → List Cell → Except DecodeStop (Instr × List Cell))
    (e : f = fun c => (take1 c).bind fun x => g x.1 x.2)
    (h : ∀ b, Gives (g b) (fun i bs => Fits p two op i (b :: bs))) : Gives f (Fits p two op) := by
  rw [e]
  refine (Gives.bind (g := g) take1_gives h).mono ?_
  rintro i _ ⟨b, _, b2, rfl, rfl, h⟩
  exact h

theorem fits_regRm (k : Reg → Rm → Instr) (h : ∀ reg rm, (k reg rm).layout = ⟨p, two, op, some (reg.index, rm), .none⟩) :
    Gives (fmtRegRm p k) (Fits p two op) :=
  fits_modrm (fun b => fmtRm p b (k (Reg.ofIndex (regField b)))) rfl fun b =>
    fits_rm _ fun rm => by rw [h, Reg.index_ofIndex]

theorem fits_regRmImm8 (k : Reg → Rm → BitVec 8 → Instr)
    (h : ∀ reg rm v, (k reg rm v).layout = ⟨p, two, op, some (reg.index, rm), .b v⟩) :
    Gives (fmtRegRmImm8 p k) (Fits p two op) :=
  fits_modrm (fun b => fmtRmImm8 p b (k (Reg.ofIndex (regField b)))) rfl fun b =>
    fits_rmImm8 _ fun rm v => by rw [h, Reg.index_ofIndex]

theorem fits_regRmz (k : Reg → Rm → Immz → Instr)
    (h : ∀ reg rm v, (k reg rm v).layout = ⟨p, two, op, some (reg.index, rm), .z v⟩) :
    Gives (fmtRegRmImmz p k) (Fits p two op) :=
  fits_modrm (fun b => fmtRmImmz p b (k (Reg.ofIndex (regField b)))) rfl fun b =>
    fits_rmz _ fun rm v => by rw [h, Reg.index_ofIndex]

theorem fits_setcc (cc : Cond) (h : ∀ ext rm, (Instr.setccRm8 p cc ext rm).layout = ⟨p, two, op, some (ext, rm), .none⟩) :
    Gives (fmtSetcc p cc) (Fits p two op) :=
  fits_modrm (fun b => fmtRm p b (.setccRm8 p cc (regField b))) rfl fun _ => fits_rm _ fun _ => h _ _

theorem fits_lea (k : Reg → MemForm → Instr)
    (h : ∀ reg m, (k reg m).layout = ⟨p, two, op, some (reg.index, .mem m), .none⟩) :
    Gives (fmtLea p k) (Fits p two op) :=
  fits_modrm (fun b c => if modField b = 3 then .error (.fault .reserved)
    else ((readMem p.addrSize b c).bind fun x => .ok (k (Reg.ofIndex (regField b)) x.1, x.2))) rfl fun b => by
    by_cases h3 : modField b = 3
    · simp only [if_pos h3]
      exact Gives.err (by simp)
    · simp only [if_neg h3]
      refine ((readMem_gives _ b h3).pure _).mono ?_
      rintro _ _ ⟨m, rfl, h1, h2, h4, rfl⟩
      simp only [Fits, h, modrmBytes, ImmField.bytes, ImmField.wf, List.append_nil, Rm.mod, Rm.rm, Rm.tail, h2, h4,
        Reg.index_ofIndex, packByte_fields, Option.all_some, Rm.wf, h1, and_self]

theorem fits_notAdmitted (l : List Byte) : Gives (fun _ => notAdmitted l) (Fits p two op) := Gives.err (by simp [notAdmitted])
theorem fits_notAdmitted' (l : List Byte) {Q : Instr → List Byte → Prop} : Gives (fun _ => notAdmitted l) Q := Gives.err (by simp [notAdmitted])
theorem fits_reserved {Q : Instr → List Byte → Prop} : Gives (fun _ => reserved) Q := Gives.err (by simp [reserved])
end

theorem bitVec3_cases (x : BitVec 3) : x = 0 ∨ x = 1 ∨ x = 2 ∨ x = 3 ∨ x = 4 ∨ x = 5 ∨ x = 6 ∨ x = 7 := by
  revert x; decide

theorem fits_group80 (p : Prefixes) (al : Opcode80) : Gives (group80 p al) (Fits p false al.byte) := by
  refine fits_modrm (fun b c => match (regField b).toNat with
    | 0 => fmtRmImm8 p b (.addRm8Imm8 p al) c
    | 1 => fmtRmImm8 p b (.orRm8Imm8 p al) c
    | 2 => fmtRmImm8 p b (.adcRm8Imm8 p al) c
    | 3 => fmtRmImm8 p b (.sbbRm8Imm8 p al) c
    | 4 => fmtRmImm8 p b (.andRm8Imm8 p al) c
    | 5 => fmtRmImm8 p b (.subRm8Imm8 p al) c
    | 6 => fmtRmImm8 p b (.xorRm8Imm8 p al) c
    | _ => fmtRmImm8 p b (.cmpRm8Imm8 p al) c) rfl fun b => ?_
  rcases bitVec3_cases (regField b) with h | h | h | h | h | h | h | h
  · simp only [h]; exact fits_rmImm8 _ fun _ _ => by rw [h]; rfl
  · simp only [h]; exact fits_rmImm8 _ fun _ _ => by rw [h]; rfl
  · simp only [h]; exact fits_rmImm8 _ fun _ _ => by rw [h]; rfl
  · simp only [h]; exact fits_rmImm8 _ fun _ _ => by rw [h]; rfl
  · simp only [h]; exact fits_rmImm8 _ fun _ _ => by rw [h]; rfl
  · simp only [h]; exact fits_rmImm8 _ fun _ _ => by rw [h]; rfl
  · simp only [h]; exact fits_rmImm8 _ fun _ _ => by rw [h]; rfl
  · simp only [h]; exact fits_rmImm8 _ fun _ _ => by rw [h]; rfl

theorem fits_group81 (p : Prefixes) : Gives (group81 p) (Fits p false 0x81) := by
  refine fits_modrm (fun b c => match (regField b).toNat with
    | 0 => fmtRmImmz p b (.addRmvImmz p) c
    | 1 => fmtRmImmz p b (.orRmvImmz p) c
    | 2 => fmtRmImmz p b (.adcRmvImmz p) c
    | 3 => fmtRmImmz p b (.sbbRmvImmz p) c
    | 4 => fmtRmImmz p b (.andRmvImmz p) c
    | 5 => fmtRmImmz p b (.subRmvImmz p) c
    | 6 => fmtRmImmz p b (.xorRmvImmz p) c
    | _ => fmtRmImmz p b (.cmpRmvImmz p) c) rfl fun b => ?_
  rcases bitVec3_cases (regField b) with h | h | h | h | h | h | h | h
  · simp only [h]; exact fits_rmz _ fun _ _ => by rw [h]; rfl
  · simp only [h]; exact fits_rmz _ fun _ _ => by rw [h]; rfl
  · simp only [h]; exact fits_rmz _ fun _ _ => by rw [h]; rfl
  · simp only [h]; exact fits_rmz _ fun _ _ => by rw [h]; rfl
  · simp only [h]; exact fits_rmz _ fun _ _ => by rw [h]; rfl
  · simp only [h]; exact fits_rmz _ fun _ _ => by rw [h]; rfl
  · simp only [h]; exact fits_rmz _ fun _ _ => by rw [h]; rfl
  · simp only [h]; exact fits_rmz _ fun _ _ => by rw [h]; rfl

theorem fits_group83 (p : Prefixes) : Gives (group83 p) (Fits p false 0x83) := by
  refine fits_modrm (fun b c => match (regField b).toNat with
    | 0 => fmtRmImm8 p b (.addRmvImm8 p) c
    | 1 => fmtRmImm8 p b (.orRmvImm8 p) c
    | 2 => fmtRmImm8 p b (.adcRmvImm8 p) c
    | 3 => fmtRmImm8 p b (.sbbRmvImm8 p) c
    | 4 => fmtRmImm8 p b (.andRmvImm8 p) c
    | 5 => fmtRmImm8 p b (.subRmvImm8 p) c
    | 6 => fmtRmImm8 p b (.xorRmvImm8 p) c
    | _ => fmtRmImm8 p b (.cmpRmvImm8 p) c) rfl fun b => ?_
  rcases bitVec3_cases (regField b) with h | h | h | h | h | h | h | h
  · simp only [h]; exact fits_rmImm8 _ fun _ _ => by rw [h]; rfl
  · simp only [h]; exact fits_rmImm8 _ fun _ _ => by rw [h]; rfl
  · simp only [h]; exact fits_rmImm8 _ fun _ _ => by rw [h]; rfl
  · simp only [h]; exact fits_rmImm8 _ fun _ _ => by rw [h]; rfl
  · simp only [h]; exact fits_rmImm8 _ fun _ _ => by rw [h]; rfl
  · simp only [h]; exact fits_rmImm8 _ fun _ _ => by rw [h]; rfl
  · simp only [h]; exact fits_rmImm8 _ fun _ _ => by rw [h]; rfl
  · simp only [h]; exact fits_rmImm8 _ fun _ _ => by rw [h]; rfl

theorem fits_groupC0 (p : Prefixes) : Gives (groupC0 p) (Fits p false 0xC0) := by
  refine fits_modrm (fun b c => match (regField b).toNat with
    | 0 => fmtRmImm8 p b (.rolRm8Imm8 p) c
    | 1 => fmtRmImm8 p b (.rorRm8Imm8 p) c
    | 2 => fmtRmImm8 p b (.rclRm8Imm8 p) c
    | 3 => fmtRmImm8 p b (.rcrRm8Imm8 p) c
    | 4 => fmtRmImm8 p b (.shlRm8Imm8 p) c
    | 5 => fmtRmImm8 p b (.shrRm8Imm8 p) c
    | 6 => notAdmitted [0xC0, b]
    | _ => fmtRmImm8 p b (.sarRm8Imm8 p) c) rfl fun b => ?_
  rcases bitVec3_cases (regField b) with h | h | h | h | h | h | h | h
  · simp only [h]; exact fits_rmImm8 _ fun _ _ => by rw [h]; rfl
  · simp only [h]; exact fits_rmImm8 _ fun _ _ => by rw [h]; rfl
  · simp only [h]; exact fits_rmImm8 _ fun _ _ => by rw [h]; rfl
  · simp only [h]; exact fits_rmImm8 _ fun _ _ => by rw [h]; rfl
  · simp only [h]; exact fits_rmImm8 _ fun _ _ => by rw [h]; rfl
  · simp only [h]; exact fits_rmImm8 _ fun _ _ => by rw [h]; rfl
  · simp only [h]; exact fits_notAdmitted' _
  · simp only [h]; exact fits_rmImm8 _ fun _ _ => by rw [h]; rfl

theorem fits_groupC1 (p : Prefixes) : Gives (groupC1 p) (Fits p false 0xC1) := by
  refine fits_modrm (fun b c => match (regField b).toNat with
    | 0 => fmtRmImm8 p b (.rolRmvImm8 p) c
    | 1 => fmtRmImm8 p b (.rorRmvImm8 p) c
    | 2 => fmtRmImm8 p b (.rclRmvImm8 p) c
    | 3 => fmtRmImm8 p b (.rcrRmvImm8 p) c
    | 4 => fmtRmImm8 p b (.shlRmvImm8 p) c
    | 5 => fmtRmImm8 p b (.shrRmvImm8 p) c
    | 6 => notAdmitted [0xC1, b]
    | _ => fmtRmImm8 p b (.sarRmvImm8 p) c) rfl fun b => ?_
  rcases bitVec3_cases (regField b) with h | h | h | h | h | h | h | h
  · simp only [h]; exact fits_rmImm8 _ fun _ _ => by rw [h]; rfl
  · simp only [h]; exact fits_rmImm8 _ fun _ _ => by rw [h]; rfl
  · simp only [h]; exact fits_rmImm8 _ fun _ _ => by rw [h]; rfl
  · simp only [h]; exact fits_rmImm8 _ fun _ _ => by rw [h]; rfl
  · simp only [h]; exact fits_rmImm8 _ fun _ _ => by rw [h]; rfl
  · simp only [h]; exact fits_rmImm8 _ fun _ _ => by rw [h]; rfl
  · simp only [h]; exact fits_notAdmitted' _
  · simp only [h]; exact fits_rmImm8 _ fun _ _ => by rw [h]; rfl

theorem fits_groupD0 (p : Prefixes) : Gives (groupD0 p) (Fits p false 0xD0) := by
  refine fits_modrm (fun b c => match (regField b).toNat with
    | 0 => fmtRm p b (.rolRm8One p) c
    | 1 => fmtRm p b (.rorRm8One p) c
    | 2 => fmtRm p b (.rclRm8One p) c
    | 3 => fmtRm p b (.rcrRm8One p) c
    | 4 => fmtRm p b (.shlRm8One p) c
    | 5 => fmtRm p b (.shrRm8One p) c
    | 6 => notAdmitted [0xD0, b]
    | _ => fmtRm p b (.sarRm8One p) c) rfl fun b => ?_
  rcases bitVec3_cases (regField b) with h | h | h | h | h | h | h | h
  · simp only [h]; exact fits_rm _ fun _ => by rw [h]; rfl
  · simp only [h]; exact fits_rm _ fun _ => by rw [h]; rfl
  · simp only [h]; exact fits_rm _ fun _ => by rw [h]; rfl
  · simp only [h]; exact fits_rm _ fun _ => by rw [h]; rfl
  · simp only [h]; exact fits_rm _ fun _ => by rw [h]; rfl
  · simp only [h]; exact fits_rm _ fun _ => by rw [h]; rfl
  · simp only [h]; exact fits_notAdmitted' _
  · simp only [h]; exact fits_rm _ fun _ => by rw [h]; rfl

theorem fits_groupD1 (p : Prefixes) : Gives (groupD1 p) (Fits p false 0xD1) := by
  refine fits_modrm (fun b c => match (regField b).toNat with
    | 0 => fmtRm p b (.rolRmvOne p) c
    | 1 => fmtRm p b (.rorRmvOne p) c
    | 2 => fmtRm p b (.rclRmvOne p) c
    | 3 => fmtRm p b (.rcrRmvOne p) c
    | 4 => fmtRm p b (.shlRmvOne p) c
    | 5 => fmtRm p b (.shrRmvOne p) c
    | 6 => notAdmitted [0xD1, b]
    | _ => fmtRm p b (.sarRmvOne p) c) rfl fun b => ?_
  rcases bitVec3_cases (regField b) with h | h | h | h | h | h | h | h
  · simp only [h]; exact fits_rm _ fun _ => by rw [h]; rfl
  · simp only [h]; exact fits_rm _ fun _ => by rw [h]; rfl
  · simp only [h]; exact fits_rm _ fun _ => by rw [h]; rfl
  · simp only [h]; exact fits_rm _ fun _ => by rw [h]; rfl
  · simp only [h]; exact fits_rm _ fun _ => by rw [h]; rfl
  · simp only [h]; exact fits_rm _ fun _ => by rw [h]; rfl
  · simp only [h]; exact fits_notAdmitted' _
  · simp only [h]; exact fits_rm _ fun _ => by rw [h]; rfl

theorem fits_groupD2 (p : Prefixes) : Gives (groupD2 p) (Fits p false 0xD2) := by
  refine fits_modrm (fun b c => match (regField b).toNat with
    | 0 => fmtRm p b (.rolRm8Cl p) c
    | 1 => fmtRm p b (.rorRm8Cl p) c
    | 2 => fmtRm p b (.rclRm8Cl p) c
    | 3 => fmtRm p b (.rcrRm8Cl p) c
    | 4 => fmtRm p b (.shlRm8Cl p) c
    | 5 => fmtRm p b (.shrRm8Cl p) c
    | 6 => notAdmitted [0xD2, b]
    | _ => fmtRm p b (.sarRm8Cl p) c) rfl fun b => ?_
  rcases bitVec3_cases (regField b) with h | h | h | h | h | h | h | h
  · simp only [h]; exact fits_rm _ fun _ => by rw [h]; rfl
  · simp only [h]; exact fits_rm _ fun _ => by rw [h]; rfl
  · simp only [h]; exact fits_rm _ fun _ => by rw [h]; rfl
  · simp only [h]; exact fits_rm _ fun _ => by rw [h]; rfl
  · simp only [h]; exact fits_rm _ fun _ => by rw [h]; rfl
  · simp only [h]; exact fits_rm _ fun _ => by rw [h]; rfl
  · simp only [h]; exact fits_notAdmitted' _
  · simp only [h]; exact fits_rm _ fun _ => by rw [h]; rfl

theorem fits_groupD3 (p : Prefixes) : Gives (groupD3 p) (Fits p false 0xD3) := by
  refine fits_modrm (fun b c => match (regField b).toNat with
    | 0 => fmtRm p b (.rolRmvCl p) c
    | 1 => fmtRm p b (.rorRmvCl p) c
    | 2 => fmtRm p b (.rclRmvCl p) c
    | 3 => fmtRm p b (.rcrRmvCl p) c
    | 4 => fmtRm p b (.shlRmvCl p) c
    | 5 => fmtRm p b (.shrRmvCl p) c
    | 6 => notAdmitted [0xD3, b]
    | _ => fmtRm p b (.sarRmvCl p) c) rfl fun b => ?_
  rcases bitVec3_cases (regField b) with h | h | h | h | h | h | h | h
  · simp only [h]; exact fits_rm _ fun _ => by rw [h]; rfl
  · simp only [h]; exact fits_rm _ fun _ => by rw [h]; rfl
  · simp only [h]; exact fits_rm _ fun _ => by rw [h]; rfl
  · simp only [h]; exact fits_rm _ fun _ => by rw [h]; rfl
  · simp only [h]; exact fits_rm _ fun _ => by rw [h]; rfl
  · simp only [h]; exact fits_rm _ fun _ => by rw [h]; rfl
  · simp only [h]; exact fits_notAdmitted' _
  · simp only [h]; exact fits_rm _ fun _ => by rw [h]; rfl

theorem fits_groupF6 (p : Prefixes) : Gives (groupF6 p) (Fits p false 0xF6) := by
  refine fits_modrm (fun b c => match (regField b).toNat with
    | 0 => fmtRmImm8 p b (.testRm8Imm8 p) c
    | 1 => notAdmitted [0xF6, b]
    | 2 => fmtRm p b (.notRm8 p) c
    | 3 => fmtRm p b (.negRm8 p) c
    | 4 => fmtRm p b (.mulRm8 p) c
    | 5 => fmtRm p b (.imulRm8 p) c
    | 6 => fmtRm p b (.divRm8 p) c
    | _ => fmtRm p b (.idivRm8 p) c) rfl fun b => ?_
  rcases bitVec3_cases (regField b) with h | h | h | h | h | h | h | h
  · simp only [h]; exact fits_rmImm8 _ fun _ _ => by rw [h]; rfl
  · simp only [h]; exact fits_notAdmitted' _
  · simp only [h]; exact fits_rm _ fun _ => by rw [h]; rfl
  · simp only [h]; exact fits_rm _ fun _ => by rw [h]; rfl
  · simp only [h]; exact fits_rm _ fun _ => by rw [h]; rfl
  · simp only [h]; exact fits_rm _ fun _ => by rw [h]; rfl
  · simp only [h]; exact fits_rm _ fun _ => by rw [h]; rfl
  · simp only [h]; exact fits_rm _ fun _ => by rw [h]; rfl

theorem fits_groupF7 (p : Prefixes) : Gives (groupF7 p) (Fits p false 0xF7) := by
  refine fits_modrm (fun b c => match (regField b).toNat with
    | 0 => fmtRmImmz p b (.testRmvImmz p) c
    | 1 => notAdmitted [0xF7, b]
    | 2 => fmtRm p b (.notRmv p) c
    | 3 => fmtRm p b (.negRmv p) c
    | 4 => fmtRm p b (.mulRmv p) c
    | 5 => fmtRm p b (.imulRmv p) c
    | 6 => fmtRm p b (.divRmv p) c
    | _ => fmtRm p b (.idivRmv p) c) rfl fun b => ?_
  rcases bitVec3_cases (regField b) with h | h | h | h | h | h | h | h
  · simp only [h]; exact fits_rmz _ fun _ _ => by rw [h]; rfl
  · simp only [h]; exact fits_notAdmitted' _
  · simp only [h]; exact fits_rm _ fun _ => by rw [h]; rfl
  · simp only [h]; exact fits_rm _ fun _ => by rw [h]; rfl
  · simp only [h]; exact fits_rm _ fun _ => by rw [h]; rfl
  · simp only [h]; exact fits_rm _ fun _ => by rw [h]; rfl
  · simp only [h]; exact fits_rm _ fun _ => by rw [h]; rfl
  · simp only [h]; exact fits_rm _ fun _ => by rw [h]; rfl

theorem fits_groupFE (p : Prefixes) : Gives (groupFE p) (Fits p false 0xFE) := by
  refine fits_modrm (fun b c => match (regField b).toNat with
    | 0 => fmtRm p b (.incRm8 p) c
    | 1 => fmtRm p b (.decRm8 p) c
    | _ => reserved) rfl fun b => ?_
  rcases bitVec3_cases (regField b) with h | h | h | h | h | h | h | h
  · simp only [h]; exact fits_rm _ fun _ => by rw [h]; rfl
  · simp only [h]; exact fits_rm _ fun _ => by rw [h]; rfl
  · simp only [h]; exact fits_reserved
  · simp only [h]; exact fits_reserved
  · simp only [h]; exact fits_reserved
  · simp only [h]; exact fits_reserved
  · simp only [h]; exact fits_reserved
  · simp only [h]; exact fits_reserved

theorem fits_groupFF (p : Prefixes) : Gives (groupFF p) (Fits p false 0xFF) := by
  refine fits_modrm (fun b c => match (regField b).toNat with
    | 0 => fmtRm p b (.incRmv p) c
    | 1 => fmtRm p b (.decRmv p) c
    | 2 => fmtRm p b (.callRmv p) c
    | 3 => notAdmitted [0xFF, b]
    | 4 => fmtRm p b (.jmpRmv p) c
    | 5 => notAdmitted [0xFF, b]
    | 6 => fmtRm p b (.pushRmv p) c
    | _ => reserved) rfl fun b => ?_
  rcases bitVec3_cases (regField b) with h | h | h | h | h | h | h | h
  · simp only [h]; exact fits_rm _ fun _ => by rw [h]; rfl
  · simp only [h]; exact fits_rm _ fun _ => by rw [h]; rfl
  · simp only [h]; exact fits_rm _ fun _ => by rw [h]; rfl
  · simp only [h]; exact fits_notAdmitted' _
  · simp only [h]; exact fits_rm _ fun _ => by rw [h]; rfl
  · simp only [h]; exact fits_notAdmitted' _
  · simp only [h]; exact fits_rm _ fun _ => by rw [h]; rfl
  · simp only [h]; exact fits_reserved

theorem fits_groupC6 (p : Prefixes) : Gives (groupC6 p) (Fits p false 0xC6) := by
  refine fits_modrm (fun b c => match (regField b).toNat with
    | 0 => fmtRmImm8 p b (.movRm8Imm8 p) c
    | _ => reserved) rfl fun b => ?_
  rcases bitVec3_cases (regField b) with h | h | h | h | h | h | h | h
  · simp only [h]; exact fits_rmImm8 _ fun _ _ => by rw [h]; rfl
  · simp only [h]; exact fits_reserved
  · simp only [h]; exact fits_reserved
  · simp only [h]; exact fits_reserved
  · simp only [h]; exact fits_reserved
  · simp only [h]; exact fits_reserved
  · simp only [h]; exact fits_reserved
  · simp only [h]; exact fits_reserved

theorem fits_groupC7 (p : Prefixes) : Gives (groupC7 p) (Fits p false 0xC7) := by
  refine fits_modrm (fun b c => match (regField b).toNat with
    | 0 => fmtRmImmz p b (.movRmvImmz p) c
    | _ => reserved) rfl fun b => ?_
  rcases bitVec3_cases (regField b) with h | h | h | h | h | h | h | h
  · simp only [h]; exact fits_rmz _ fun _ _ => by rw [h]; rfl
  · simp only [h]; exact fits_reserved
  · simp only [h]; exact fits_reserved
  · simp only [h]; exact fits_reserved
  · simp only [h]; exact fits_reserved
  · simp only [h]; exact fits_reserved
  · simp only [h]; exact fits_reserved
  · simp only [h]; exact fits_reserved

/-! ### The maps (R134, R139) -/

/-- A map by high nibble, at the opcode's low nibble. -/
theorem fits_nibble {p : Prefixes} {hi : Nat} {f : Nat → List Cell → Except DecodeStop (Instr × List Cell)} {op : Byte}
    (h : op.toNat / 16 = hi) (hf : ∀ n < 16, Gives (f n) (Fits p false (BitVec.ofNat 8 (16 * hi + n)))) :
    Gives (f (op.toNat % 16)) (Fits p false op) := by
  have := hf (op.toNat % 16) (by omega)
  rwa [show 16 * hi + op.toNat % 16 = op.toNat by omega, BitVec.ofNat_toNat, BitVec.setWidth_eq] at this

theorem fits_map0 (p : Prefixes) (n : Nat) (hn : n < 16) :
    Gives (map0 p n) (Fits p false (BitVec.ofNat 8 (16 * 0 + n))) := by
  interval_cases n <;>
    first
    | exact fits_notAdmitted _
    | exact fits_regRm _ fun _ _ => rfl
    | exact fits_imm8 _ fun _ => rfl
    | exact fits_z _ fun _ => rfl

theorem fits_map1 (p : Prefixes) (n : Nat) (hn : n < 16) :
    Gives (map1 p n) (Fits p false (BitVec.ofNat 8 (16 * 1 + n))) := by
  interval_cases n <;>
    first
    | exact fits_notAdmitted _
    | exact fits_regRm _ fun _ _ => rfl
    | exact fits_imm8 _ fun _ => rfl
    | exact fits_z _ fun _ => rfl

theorem fits_map2 (p : Prefixes) (n : Nat) (hn : n < 16) :
    Gives (map2 p n) (Fits p false (BitVec.ofNat 8 (16 * 2 + n))) := by
  interval_cases n <;>
    first
    | exact fits_notAdmitted _
    | exact fits_regRm _ fun _ _ => rfl
    | exact fits_imm8 _ fun _ => rfl
    | exact fits_z _ fun _ => rfl

theorem fits_map3 (p : Prefixes) (n : Nat) (hn : n < 16) :
    Gives (map3 p n) (Fits p false (BitVec.ofNat 8 (16 * 3 + n))) := by
  interval_cases n <;>
    first
    | exact fits_notAdmitted _
    | exact fits_regRm _ fun _ _ => rfl
    | exact fits_imm8 _ fun _ => rfl
    | exact fits_z _ fun _ => rfl

theorem fits_map4 (p : Prefixes) (n : Nat) (hn : n < 16) :
    Gives (map4 p n) (Fits p false (BitVec.ofNat 8 (16 * 4 + n))) := by
  interval_cases n <;> exact fits_none _ rfl

theorem fits_map5 (p : Prefixes) (n : Nat) (hn : n < 16) :
    Gives (map5 p n) (Fits p false (BitVec.ofNat 8 (16 * 5 + n))) := by
  interval_cases n <;> exact fits_none _ rfl

theorem fits_map6 (p : Prefixes) (n : Nat) (hn : n < 16) :
    Gives (map6 p n) (Fits p false (BitVec.ofNat 8 (16 * 6 + n))) := by
  interval_cases n <;>
    first
    | exact fits_notAdmitted _
    | exact fits_z _ fun _ => rfl
    | exact fits_imm8 _ fun _ => rfl
    | exact fits_regRmImm8 _ fun _ _ _ => rfl
    | exact fits_regRmz _ fun _ _ _ => rfl

theorem fits_map7 (p : Prefixes) (n : Nat) (hn : n < 16) :
    Gives (map7 p n) (Fits p false (BitVec.ofNat 8 (16 * 7 + n))) := by
  interval_cases n <;> exact fits_imm8 _ fun _ => rfl

theorem fits_map8 (p : Prefixes) (n : Nat) (hn : n < 16) :
    Gives (map8 p n) (Fits p false (BitVec.ofNat 8 (16 * 8 + n))) := by
  interval_cases n <;>
    first
    | exact fits_notAdmitted _
    | exact fits_regRm _ fun _ _ => rfl
    | exact fits_lea _ fun _ _ => rfl
    | exact fits_group80 _ .op80
    | exact fits_group80 _ .op82
    | exact fits_group81 _
    | exact fits_group83 _

theorem fits_map9 (p : Prefixes) (n : Nat) (hn : n < 16) :
    Gives (map9 p n) (Fits p false (BitVec.ofNat 8 (16 * 9 + n))) := by
  interval_cases n <;>
    first
    | exact fits_notAdmitted _
    | exact fits_none _ rfl

theorem fits_mapA (p : Prefixes) (n : Nat) (hn : n < 16) :
    Gives (mapA p n) (Fits p false (BitVec.ofNat 8 (16 * 10 + n))) := by
  interval_cases n <;>
    first
    | exact fits_notAdmitted _
    | exact fits_m _ fun _ => rfl
    | exact fits_imm8 _ fun _ => rfl
    | exact fits_z _ fun _ => rfl

theorem fits_mapB (p : Prefixes) (n : Nat) (hn : n < 16) :
    Gives (mapB p n) (Fits p false (BitVec.ofNat 8 (16 * 11 + n))) := by
  interval_cases n <;>
    first
    | exact fits_imm8 _ fun _ => rfl
    | exact fits_z _ fun _ => rfl

theorem fits_mapC (p : Prefixes) (n : Nat) (hn : n < 16) :
    Gives (mapC p n) (Fits p false (BitVec.ofNat 8 (16 * 12 + n))) := by
  interval_cases n <;>
    first
    | exact fits_notAdmitted _
    | exact fits_imm16 _ fun _ => rfl
    | exact fits_none _ rfl
    | exact fits_groupC0 _
    | exact fits_groupC1 _
    | exact fits_groupC6 _
    | exact fits_groupC7 _

theorem fits_mapD (p : Prefixes) (n : Nat) (hn : n < 16) :
    Gives (mapD p n) (Fits p false (BitVec.ofNat 8 (16 * 13 + n))) := by
  interval_cases n <;>
    first
    | exact fits_notAdmitted _
    | exact fits_groupD0 _
    | exact fits_groupD1 _
    | exact fits_groupD2 _
    | exact fits_groupD3 _

theorem fits_mapE (p : Prefixes) (n : Nat) (hn : n < 16) :
    Gives (mapE p n) (Fits p false (BitVec.ofNat 8 (16 * 14 + n))) := by
  interval_cases n <;>
    first
    | exact fits_notAdmitted _
    | exact fits_z _ fun _ => rfl
    | exact fits_imm8 _ fun _ => rfl

theorem fits_mapF (p : Prefixes) (n : Nat) (hn : n < 16) :
    Gives (mapF p n) (Fits p false (BitVec.ofNat 8 (16 * 15 + n))) := by
  interval_cases n <;>
    first
    | exact fits_notAdmitted _
    | exact fits_none _ rfl
    | exact fits_groupF6 _
    | exact fits_groupF7 _
    | exact fits_groupFE _
    | exact fits_groupFF _

theorem fits_mapOne (p : Prefixes) (op : Byte) : Gives (mapOne p op) (Fits p false op) := by
  have h : op.toNat / 16 < 16 := by have := op.isLt; omega
  rcases hk : op.toNat / 16 with _ | _ | _ | _ | _ | _ | _ | _ | _ | _ | _ | _ | _ | _ | _ | _ | k
  · have e : mapOne p op = map0 p (op.toNat % 16) := by funext c; simp only [mapOne, hk]
    rw [e]; exact fits_nibble hk (fits_map0 p)
  · have e : mapOne p op = map1 p (op.toNat % 16) := by funext c; simp only [mapOne, hk]
    rw [e]; exact fits_nibble hk (fits_map1 p)
  · have e : mapOne p op = map2 p (op.toNat % 16) := by funext c; simp only [mapOne, hk]
    rw [e]; exact fits_nibble hk (fits_map2 p)
  · have e : mapOne p op = map3 p (op.toNat % 16) := by funext c; simp only [mapOne, hk]
    rw [e]; exact fits_nibble hk (fits_map3 p)
  · have e : mapOne p op = map4 p (op.toNat % 16) := by funext c; simp only [mapOne, hk]
    rw [e]; exact fits_nibble hk (fits_map4 p)
  · have e : mapOne p op = map5 p (op.toNat % 16) := by funext c; simp only [mapOne, hk]
    rw [e]; exact fits_nibble hk (fits_map5 p)
  · have e : mapOne p op = map6 p (op.toNat % 16) := by funext c; simp only [mapOne, hk]
    rw [e]; exact fits_nibble hk (fits_map6 p)
  · have e : mapOne p op = map7 p (op.toNat % 16) := by funext c; simp only [mapOne, hk]
    rw [e]; exact fits_nibble hk (fits_map7 p)
  · have e : mapOne p op = map8 p (op.toNat % 16) := by funext c; simp only [mapOne, hk]
    rw [e]; exact fits_nibble hk (fits_map8 p)
  · have e : mapOne p op = map9 p (op.toNat % 16) := by funext c; simp only [mapOne, hk]
    rw [e]; exact fits_nibble hk (fits_map9 p)
  · have e : mapOne p op = mapA p (op.toNat % 16) := by funext c; simp only [mapOne, hk]
    rw [e]; exact fits_nibble hk (fits_mapA p)
  · have e : mapOne p op = mapB p (op.toNat % 16) := by funext c; simp only [mapOne, hk]
    rw [e]; exact fits_nibble hk (fits_mapB p)
  · have e : mapOne p op = mapC p (op.toNat % 16) := by funext c; simp only [mapOne, hk]
    rw [e]; exact fits_nibble hk (fits_mapC p)
  · have e : mapOne p op = mapD p (op.toNat % 16) := by funext c; simp only [mapOne, hk]
    rw [e]; exact fits_nibble hk (fits_mapD p)
  · have e : mapOne p op = mapE p (op.toNat % 16) := by funext c; simp only [mapOne, hk]
    rw [e]; exact fits_nibble hk (fits_mapE p)
  · have e : mapOne p op = mapF p (op.toNat % 16) := by funext c; simp only [mapOne, hk]
    rw [e]; exact fits_nibble hk (fits_mapF p)
  · omega

theorem fits_mapTwo (p : Prefixes) (op : Byte) : Gives (mapTwo p op) (Fits p true op) := by
  have h8 : ∀ op : Byte, op.toNat / 16 = 8 → op = opCond 0x80 (Cond.ofBits (op.toNat % 16)) := by decide
  have h9 : ∀ op : Byte, op.toNat / 16 = 9 → op = opCond 0x90 (Cond.ofBits (op.toNat % 16)) := by decide
  by_cases a8 : op.toNat / 16 = 8
  · have e : mapTwo p op = fmtImmz p.opSize (.jccRelz p (Cond.ofBits (op.toNat % 16))) := by
      funext c; simp only [mapTwo, a8]
    rw [e]
    refine fits_z _ fun v => ?_
    show Layout.mk _ _ _ _ _ = _
    rw [← h8 op a8]
  · by_cases a9 : op.toNat / 16 = 9
    · have e : mapTwo p op = fmtSetcc p (Cond.ofBits (op.toNat % 16)) := by
        funext c; simp only [mapTwo, a9]
      rw [e]
      refine fits_setcc _ fun ext rm => ?_
      show Layout.mk _ _ _ _ _ = _
      rw [← h9 op a9]
    · unfold mapTwo
      split
      · contradiction
      · contradiction
      · split
        · rename_i h; rw [show op = 0x0B#8 from BitVec.eq_of_toNat_eq h]; exact fits_none _ rfl
        · rename_i h; rw [show op = 0xAF#8 from BitVec.eq_of_toNat_eq h]; exact fits_regRm _ fun _ _ => rfl
        · rename_i h; rw [show op = 0xB6#8 from BitVec.eq_of_toNat_eq h]; exact fits_regRm _ fun _ _ => rfl
        · rename_i h; rw [show op = 0xB7#8 from BitVec.eq_of_toNat_eq h]; exact fits_regRm _ fun _ _ => rfl
        · rename_i h; rw [show op = 0xBE#8 from BitVec.eq_of_toNat_eq h]; exact fits_regRm _ fun _ _ => rfl
        · rename_i h; rw [show op = 0xBF#8 from BitVec.eq_of_toNat_eq h]; exact fits_regRm _ fun _ _ => rfl
        · exact fits_notAdmitted _

/-! ### The decoder -/

theorem decodeCells_prefixLoop (z : OpSize) : decodeCells z = fun c => ((prefixLoop none c).bind fun x => (fun (y : List Prefix × Byte) c => decodeOpcode ⟨z, y.1⟩ y.2 c) x.1 x.2) := by
  funext c
  simp only [decodeCells, prefixLoop, bind]
  cases readPrefixes none c <;> rfl

theorem decodeOpcode_gives (p : Prefixes) (op : Byte) :
    Gives (decodeOpcode p op) (fun i bs => i.layout.pfx = p ∧ i.layout.first = op ∧
      (i.layout.modrm.all fun x => x.2.wf p.addrSize) = true ∧ i.layout.imm.wf p = true ∧
      op :: bs = i.layout.opBytes ++ (modrmBytes i.layout.modrm ++ i.layout.imm.bytes)) := by
  by_cases h : op = 0x0F
  · subst h
    have : decodeOpcode p 0x0F = fun c => ((take1 c).bind fun x => (fun b c => mapTwo p b c) x.1 x.2) := rfl
    rw [this]
    refine (Gives.bind (g := fun b c => mapTwo p b c) take1_gives (fun b => fits_mapTwo p b)).mono ?_
    rintro i _ ⟨b, _, b2, rfl, rfl, h1, h2, h3, h4, h5, rfl⟩
    refine ⟨h1, ?_, h4, h5, ?_⟩
    · simp [Layout.first, h2]
    · simp [Layout.opBytes, h2, h3]
  · have : decodeOpcode p op = mapOne p op := by funext c; rw [decodeOpcode, if_neg h]
    rw [this]
    refine (fits_mapOne p op).mono ?_
    rintro i _ ⟨h1, h2, h3, h4, h5, rfl⟩
    refine ⟨h1, ?_, h4, h5, ?_⟩
    · simp [Layout.first, h2, h3]
    · simp [Layout.opBytes, h2, h3]

theorem decodeCells_gives (z : OpSize) :
    Gives (decodeCells z) (fun i bs => i.pfx.dflt = z ∧ i.layout.pfx.wf = true ∧
      (i.layout.modrm.all fun x => x.2.wf i.layout.pfx.addrSize) = true ∧ i.layout.imm.wf i.layout.pfx = true ∧
      bs = encode i) := by
  have base := fun y : List Prefix × Byte => decodeOpcode_gives ⟨z, y.1⟩ y.2
  rw [decodeCells_prefixLoop]
  have hp : Gives (prefixLoop none) (fun x bs => endsPrefixes x.2 = true ∧ overridesAgree none x.1 ∧ bs = x.1.map Prefix.byte ++ [x.2]) := by
    intro c x c' h
    obtain ⟨h1, h2, rfl⟩ := prefixLoop_gives c none x c' h
    exact ⟨_, ⟨h1, h2, rfl⟩, rfl, prefixLoop_reads h1 _ _ h2⟩
  refine (Gives.bind (g := fun (y : List Prefix × Byte) c => decodeOpcode ⟨z, y.1⟩ y.2 c) hp base).mono ?_
  rintro i _ ⟨y, _, b2, rfl, ⟨h1, h2, rfl⟩, h3, h4, h5, h6, h7⟩
  refine ⟨?_, ?_, ?_, ?_, ?_⟩
  · rw [Instr.pfx, h3]
  · rw [h3]; exact (Prefixes.wf_iff_overridesAgree z y.1).mpr h2
  · rw [h3]; exact h5
  · rw [h3]; exact h6
  · simp only [encode, Layout.bytes, h3]
    rw [List.append_assoc, ← h7]; simp

end Sys2Proof
end

