-- ==== Sys2Proof/Tests/Slice0.lean ====
section
/-! SUPPORT. Slice0: the model's own tests. Expected results are those of spec/95_test_vectors.md (named in
each comment) or of an instruction rule's Example; decoding words are written out from the encoding
tables of 30_encoding.md. Each test is one step, or one decoding. At the end, for every statement with
hypotheses, a witness that they can be met. -/

namespace Sys2Proof.Tests

open Sys2Proof.Machine

/-! ### Helpers -/

/-- 95_test_vectors.md, Conventions: 32-bit Protected mode, flat, cpl 0, eip 0x100. -/
def flat : State :=
  { State.reset with
    mode := .prot
    codeSize32 := true
    stackSize32 := true
    seg := ⟨⟨0, 0⟩, ⟨0, 0⟩, ⟨0, 0⟩, ⟨0, 0⟩, ⟨0, 0⟩, ⟨0, 0⟩⟩
    eip := 0x100 }

/-- Registers eax, ecx, edx, ebx, esp, ebp, esi, edi. -/
def regs (a c d b sp bp si di : Word) (s : State) : State := { s with gpr := ⟨a, c, d, b, sp, bp, si, di⟩ }

/-- EAX and EBX, the others zero but ESP = 0x1000. -/
def ab (a b : Word) (s : State) : State := regs a 0 0 b 0x1000 0 0 0 s

/-- Flags in the order CF PF AF ZF SF OF of 95_test_vectors.md. -/
def flg (c p a z s o : Nat) : Flags := ⟨c == 1, p == 1, a == 1, z == 1, s == 1, o == 1⟩

/-- Set the flags. -/
def withFlags (f : Flags) (s : State) : State := { s with flags := f }

/-- Bytes at an address. -/
def poke (a : Word) (l : List Byte) (s : State) : State := s.setPhysicalMemory a l

/-- One step with the code, then HLT, at CS:eip. -/
def run (code : List Byte) (s : State) : Out := step (poke (s.lin .cs s.eip) (code ++ [0xF4]) s)

/-- A view of the next state, if there is one. -/
def seen {α : Type} (f : State → α) : Out → Option α
  | .next t => some (f t)
  | .fault _ => none
  | .refused _ => none

/-- The bytes at an address. -/
def bytesAt (a : Word) (n : Nat) (t : State) : List Byte := Memory.readBytes t.mem a n

/-! ### Vectors -/

/-- V-ADD-1. -/
theorem test_add_wraps : seen (fun t => (t.gpr.eax, t.flags)) (run [0x01, 0xD8] (withFlags (flg 0 0 0 0 0 0) (ab 0xFFFFFFFF 1 flat))) = some (0, flg 1 1 1 1 0 0) := by decide

/-- V-ADD-2. -/
theorem test_add_overflows : seen (fun t => (t.gpr.eax, t.flags)) (run [0x01, 0xD8] (withFlags (flg 0 0 0 0 0 0) (ab 0x7FFFFFFF 1 flat))) = some (0x80000000, flg 0 1 1 0 1 1) := by decide

/-- V-ADD-3. -/
theorem test_add8_carry : seen (fun t => (t.gpr.eax, t.flags)) (run [0x00, 0xD8] (withFlags (flg 0 0 0 0 0 0) (ab 0x80 0x80 flat))) = some (0, flg 1 1 0 1 0 1) := by decide

/-- V-ADD-4. -/
theorem test_add16_half_carry : seen (fun t => (t.gpr.eax, t.flags)) (run [0x66, 0x01, 0xD8] (withFlags (flg 0 0 0 0 0 0) (ab 0x000F 1 flat))) = some (0x10, flg 0 0 1 0 0 0) := by decide

/-- V-ADC-1. -/
theorem test_adc_carry_in : seen (fun t => (t.gpr.eax, t.flags)) (run [0x11, 0xD8] (withFlags (flg 1 0 0 0 0 0) (ab 0xFFFFFFFF 0 flat))) = some (0, flg 1 1 1 1 0 0) := by decide

/-- V-ADC-2. -/
theorem test_adc8_al_imm : seen (fun t => (t.gpr.eax, t.flags)) (run [0x14, 0x00] (withFlags (flg 1 0 0 0 0 0) (ab 0x7F 0 flat))) = some (0x80, flg 0 0 1 0 1 1) := by decide

/-- V-SUB-1. -/
theorem test_sub_borrow : seen (fun t => (t.gpr.eax, t.flags)) (run [0x29, 0xD8] (withFlags (flg 0 0 0 0 0 0) (ab 0 1 flat))) = some (0xFFFFFFFF, flg 1 1 1 0 1 0) := by decide

/-- V-SUB-3. -/
theorem test_sub8_same : seen (fun t => (t.gpr.eax, t.flags)) (run [0x28, 0xC0] (withFlags (flg 0 0 0 0 0 0) (ab 5 0 flat))) = some (0, flg 0 1 0 1 0 0) := by decide

/-- V-SBB-2. -/
theorem test_sbb8_borrow_in : seen (fun t => (t.gpr.eax, t.flags)) (run [0x18, 0xD8] (withFlags (flg 1 0 0 0 0 0) (ab 0x80 0x7F flat))) = some (0, flg 0 1 1 1 0 1) := by decide

/-- V-SBB-3. -/
theorem test_sbb16_same : seen (fun t => (t.gpr.eax, t.flags)) (run [0x66, 0x19, 0xC0] (withFlags (flg 1 0 0 0 0 0) (ab 5 0 flat))) = some (0xFFFF, flg 1 1 1 0 1 0) := by decide

/-- V-CMP-1. -/
theorem test_cmp_writes_nothing : seen (fun t => (t.gpr.eax, t.flags)) (run [0x39, 0xD8] (withFlags (flg 0 0 0 0 0 0) (ab 1 2 flat))) = some (1, flg 1 1 1 0 1 0) := by decide

/-- V-CMP-2. -/
theorem test_cmp8_overflow : seen (fun t => (t.gpr.eax, t.flags)) (run [0x38, 0xD8] (withFlags (flg 0 0 0 0 0 0) (ab 0x7F 0xFF flat))) = some (0x7F, flg 1 0 0 0 1 1) := by decide

/-- V-INC-1. -/
theorem test_inc_keeps_cf : seen (fun t => (t.gpr.eax, t.flags)) (run [0x40] (withFlags (flg 1 0 0 0 0 0) (ab 0xFFFFFFFF 0 flat))) = some (0, flg 1 1 1 1 0 0) := by decide

/-- V-INC-4. -/
theorem test_inc16 : seen (fun t => (t.gpr.eax, t.flags)) (run [0x66, 0x40] (withFlags (flg 0 0 0 0 0 0) (ab 0x7FFF 0 flat))) = some (0x8000, flg 0 1 1 0 1 1) := by decide

/-- V-DEC-1. -/
theorem test_dec_keeps_cf : seen (fun t => (t.gpr.eax, t.flags)) (run [0x48] (withFlags (flg 1 0 0 0 0 0) (ab 0 0 flat))) = some (0xFFFFFFFF, flg 1 1 1 0 1 0) := by decide

/-- V-DEC-3. -/
theorem test_dec8 : seen (fun t => (t.gpr.eax, t.flags)) (run [0xFE, 0xC8] (withFlags (flg 0 0 0 0 0 0) (ab 0x10 0 flat))) = some (0x0F, flg 0 1 1 0 0 0) := by decide

/-- V-NEG-3. -/
theorem test_neg_min : seen (fun t => (t.gpr.eax, t.flags)) (run [0xF7, 0xD8] (withFlags (flg 0 0 0 0 0 0) (ab 0x80000000 0 flat))) = some (0x80000000, flg 1 1 0 0 1 1) := by decide

/-- V-NEG-5. -/
theorem test_neg16 : seen (fun t => (t.gpr.eax, t.flags)) (run [0x66, 0xF7, 0xD8] (withFlags (flg 0 0 0 0 0 0) (ab 0x10 0 flat))) = some (0xFFF0, flg 1 1 0 0 1 0) := by decide

/-- V-FORM-1. -/
theorem test_add_imm8_sign_extended : seen (fun t => (t.gpr.eax, t.flags)) (run [0x83, 0xC0, 0xFF] (withFlags (flg 0 0 0 0 0 0) (ab 5 0 flat))) = some (4, flg 1 0 1 0 0 0) := by decide

/-- V-FORM-3. -/
theorem test_add_al_keeps_upper : seen (fun t => (t.gpr.eax, t.flags)) (run [0x04, 0x01] (withFlags (flg 0 0 0 0 0 0) (ab 0x123456FF 0 flat))) = some (0x12345600, flg 1 1 1 1 0 0) := by decide

/-- V-FORM-4. -/
theorem test_sub_ah : seen (fun t => (t.gpr.eax, t.flags)) (run [0x80, 0xEC, 0x01] (withFlags (flg 0 0 0 0 0 0) (ab 0 0 flat))) = some (0x0000FF00, flg 1 1 1 0 1 0) := by decide

/-- V-AND-1. -/
theorem test_and_zero : seen (fun t => (t.gpr.eax, t.flags)) (run [0x21, 0xD8] (withFlags (flg 1 0 0 0 0 0) (ab 0xF0F0F0F0 0x0F0F0F0F flat))) = some (0, flg 0 1 0 1 0 0) := by decide

/-- V-OR-1. -/
theorem test_or16 : seen (fun t => (t.gpr.eax, t.flags)) (run [0x66, 0x09, 0xD8] (withFlags (flg 0 0 0 0 0 0) (ab 0x1200 0x34 flat))) = some (0x1234, flg 0 0 0 0 0 0) := by decide

/-- V-XOR-2. -/
theorem test_xor8 : seen (fun t => (t.gpr.eax, t.flags)) (run [0x30, 0xD8] (withFlags (flg 0 0 0 0 0 0) (ab 0x55 0xAA flat))) = some (0xFF, flg 0 1 0 0 1 0) := by decide

/-- V-TEST-2. -/
theorem test_test_al_imm : seen (fun t => (t.gpr.eax, t.flags)) (run [0xA8, 0x01] (withFlags (flg 1 0 0 0 0 0) (ab 3 0 flat))) = some (3, flg 0 0 0 0 0 0) := by decide

/-- V-NOT-1. -/
theorem test_not_keeps_flags : seen (fun t => (t.gpr.eax, t.flags)) (run [0xF7, 0xD0] (withFlags (flg 1 0 0 0 0 0) (ab 0 0 flat))) = some (0xFFFFFFFF, flg 1 0 0 0 0 0) := by decide

/-- R173, R232 Example. -/
theorem test_logic_keeps_af : seen (fun t => t.flags) (run [0x31, 0xC0] (withFlags (flg 1 0 1 0 1 1) (ab 5 0 flat))) = some (flg 0 1 1 1 0 0) := by decide

/-- V-FORM-5. -/
theorem test_add_bx_imm16 : seen (fun t => t.gpr.ebx) (run [0x66, 0x81, 0xC3, 0x34, 0x12] (ab 0 0xFFFF0001 flat)) = some 0xFFFF1235 := by decide

/-- V-ROL-1. -/
theorem test_rol_one : seen (fun t => (t.gpr.eax, t.flags)) (run [0xD1, 0xC0] (withFlags (flg 0 0 0 0 0 0) (ab 0x80000001 0 flat))) = some (3, flg 1 0 0 0 0 1) := by decide

/-- V-ROL-3. -/
theorem test_rol8_by_width : seen (fun t => (t.gpr.eax, t.flags)) (run [0xC0, 0xC0, 0x08] (withFlags (flg 0 0 0 0 0 0) (ab 1 0 flat))) = some (1, flg 1 0 0 0 0 0) := by decide

/-- V-ROL-4. -/
theorem test_rol_masked_zero : seen (fun t => (t.gpr.eax, t.flags)) (run [0xC1, 0xC0, 0x20] (withFlags (flg 1 0 0 0 0 0) (ab 0x12345678 0 flat))) = some (0x12345678, flg 1 0 0 0 0 0) := by decide

/-- V-ROR-2. -/
theorem test_ror16_17 : seen (fun t => (t.gpr.eax, t.flags)) (run [0x66, 0xC1, 0xC8, 0x11] (withFlags (flg 0 0 0 0 0 0) (ab 1 0 flat))) = some (0x8000, flg 1 0 0 0 0 0) := by decide

/-- V-ROR-3. -/
theorem test_ror8_one : seen (fun t => (t.gpr.eax, t.flags)) (run [0xD0, 0xC8] (withFlags (flg 0 0 0 0 0 0) (ab 0xC0 0 flat))) = some (0x60, flg 0 0 0 0 0 1) := by decide

/-- V-RCL-4. -/
theorem test_rcl8_ten : seen (fun t => (t.gpr.eax, t.flags)) (run [0xC0, 0xD0, 0x0A] (withFlags (flg 1 0 0 0 0 0) (ab 1 0 flat))) = some (3, flg 0 0 0 0 0 0) := by decide

/-- V-RCL-2. -/
theorem test_rcl16_one : seen (fun t => (t.gpr.eax, t.flags)) (run [0x66, 0xD1, 0xD0] (withFlags (flg 1 0 0 0 0 0) (ab 0x8000 0 flat))) = some (1, flg 1 0 0 0 0 1) := by decide

/-- V-RCR-1, S1. -/
theorem test_rcr16_one : seen (fun t => (t.gpr.eax, t.flags)) (run [0x66, 0xD1, 0xD8] (withFlags (flg 1 0 0 0 0 0) (ab 1 0 flat))) = some (0x8000, flg 1 0 0 0 0 1) := by decide

/-- V-RCR-3. -/
theorem test_rcr16_eighteen : seen (fun t => (t.gpr.eax, t.flags)) (run [0x66, 0xC1, 0xD8, 0x12] (withFlags (flg 1 0 0 0 0 0) (ab 1 0 flat))) = some (0x8000, flg 1 0 0 0 0 0) := by decide

/-- V-RCR-5. -/
theorem test_rcr16_literal_count : seen (fun t => (t.gpr.eax, t.flags.cf)) (run [0x66, 0xC1, 0xD8, 0x20] { ab 0x1234 0 flat with params := { Params.default with rotCountMask5 := false } }) = some (0x48D0, false) := by decide

/-- V-SHL-1. -/
theorem test_shl_one : seen (fun t => (t.gpr.eax, t.flags)) (run [0xD1, 0xE0] (withFlags (flg 0 0 0 0 0 0) (ab 0x80000001 0 flat))) = some (2, flg 1 0 0 0 0 1) := by decide

/-- V-SHL-2. -/
theorem test_shl8_by_width : seen (fun t => (t.gpr.eax, t.flags)) (run [0xC0, 0xE0, 0x08] (withFlags (flg 0 0 0 0 0 0) (ab 1 0 flat))) = some (0, flg 1 1 0 1 0 0) := by decide

/-- V-SHL-3. -/
theorem test_shl8_draws_cf : seen (fun t => (t.gpr.eax, t.flags.zf, t.flags.pf, t.flags.sf, t.draws)) (run [0xC0, 0xE0, 0x09] (ab 1 0 flat)) = some (0, true, true, false, 1) := by decide

/-- V-SHR-1. -/
theorem test_shr_one : seen (fun t => (t.gpr.eax, t.flags)) (run [0xD1, 0xE8] (withFlags (flg 0 0 0 0 0 0) (ab 0x80000001 0 flat))) = some (0x40000000, flg 1 1 0 0 0 1) := by decide

/-- V-SHR-2. -/
theorem test_shr16_by_width : seen (fun t => (t.gpr.eax, t.flags)) (run [0x66, 0xC1, 0xE8, 0x10] (withFlags (flg 0 0 0 0 0 0) (ab 0x8000 0 flat))) = some (0, flg 1 1 0 1 0 0) := by decide

/-- V-SAR-3. -/
theorem test_sar8_past_width : seen (fun t => (t.gpr.eax, t.flags)) (run [0xC0, 0xF8, 0x09] (withFlags (flg 0 0 0 0 0 0) (ab 0x80 0 flat))) = some (0xFF, flg 1 1 0 0 1 0) := by decide

/-- V-SAR-1. -/
theorem test_sar_one : seen (fun t => (t.gpr.eax, t.flags)) (run [0xD1, 0xF8] (withFlags (flg 0 0 0 0 0 0) (ab 0x80000000 0 flat))) = some (0xC0000000, flg 0 1 0 0 1 0) := by decide

/-- V-SH-CL. -/
theorem test_shl_reads_cl_only : seen (fun t => t.gpr.eax) (run [0xD3, 0xE0] (regs 1 0x104 0 0 0 0 0 0 flat)) = some 0x10 := by decide

/-- V-SH-MEM. -/
theorem test_shift_by_zero_still_reads : seen (fun t => (t.eip, t.report)) (run [0xC1, 0x20, 0x00] { ab 0x4000 0 flat with params := { Params.default with access := [⟨.read, .ds, 0x4000, 0x4000, none, .fault 14 (some 0)⟩] } }) = some (0x100, some ⟨0, .trap 14 (some 0)⟩) := by decide

/-- S1. -/
theorem test_rcr_word_in_memory : seen (fun t => (bytesAt 0x4000 2 t, t.flags.cf, t.flags.of, t.eip)) (run [0x66, 0xC1, 0x18, 0x01] (poke 0x4000 [1, 0] (withFlags (flg 1 0 0 0 0 0) (ab 0x4000 0 flat)))) = some ([0x00, 0x80], true, true, 0x104) := by decide

/-- V-MUL-1. -/
theorem test_mul32 : seen (fun t => (t.gpr.eax, t.gpr.edx, t.flags.cf, t.flags.of)) (run [0xF7, 0xE3] (regs 0xFFFFFFFF 0 0 0xFFFFFFFF 0x1000 0 0 0 flat)) = some (1, 0xFFFFFFFE, true, true) := by decide

/-- V-MUL-3. -/
theorem test_mul8 : seen (fun t => (t.gpr.eax, t.gpr.edx, t.flags.cf, t.flags.of)) (run [0xF6, 0xE3] (regs 0x80 0 0 2 0x1000 0 0 0 flat)) = some (0x100, 0, true, true) := by decide

/-- V-IMUL1-2. -/
theorem test_imul1_min : seen (fun t => (t.gpr.eax, t.gpr.edx, t.flags.cf, t.flags.of)) (run [0xF7, 0xEB] (regs 0x80000000 0 0 0xFFFFFFFF 0x1000 0 0 0 flat)) = some (0x80000000, 0, true, true) := by decide

/-- V-IMUL1-4. -/
theorem test_imul1_16 : seen (fun t => (t.gpr.eax, t.gpr.edx, t.flags.cf, t.flags.of)) (run [0x66, 0xF7, 0xEB] (regs 0xFFFF 0 0 2 0x1000 0 0 0 flat)) = some (0xFFFE, 0xFFFF, false, false) := by decide

/-- V-IMUL2-1. -/
theorem test_imul2 : seen (fun t => (t.gpr.eax, t.flags.cf, t.flags.of, t.draws)) (run [0x0F, 0xAF, 0xC3] (regs 0x10000 0 0 0x10000 0x1000 0 0 0 flat)) = some (0, true, true, 4) := by decide

/-- V-IMUL3-1, S2. -/
theorem test_imul3_overflow : seen (fun t => (t.gpr.eax, t.flags.cf, t.flags.of, t.flags.sf, t.flags.zf, t.flags.pf)) (run [0x69, 0xC0, 0x02, 0x00, 0x00, 0x00] (regs 0x7FFFFFFF 0 0 0 0x1000 0 0 0 flat)) = some (0xFFFFFFFE, true, true, true, false, false) := by decide

/-- V-IMUL3-3. -/
theorem test_imul3_imm8 : seen (fun t => (t.gpr.eax, t.flags.cf, t.flags.of, t.flags.sf, t.flags.zf, t.flags.pf)) (run [0x6B, 0xC0, 0x04] (regs 0x40000000 0 0 0 0x1000 0 0 0 flat)) = some (0, true, true, false, true, true) := by decide

/-- V-DIV-1. -/
theorem test_div32 : seen (fun t => (t.gpr.eax, t.gpr.edx)) (run [0xF7, 0xF1] (regs 0 2 1 0 0x1000 0 0 0 flat)) = some (0x80000000, 0) := by decide

/-- V-DIV-2. -/
theorem test_div_by_zero_traps : seen (fun t => (t.eip, t.gpr.eax, t.lastTag, t.report)) (run [0xF7, 0xF1] (ab 7 0 flat)) = some (0x100, 7, .trap 0 none, some ⟨0, .trap 0 none⟩) := by decide

/-- V-DIV-6. -/
theorem test_div16_overflow_traps : seen (fun t => (t.gpr.eax, t.lastTag)) (run [0x66, 0xF7, 0xF3] (regs 0x5678 0 0x1234 0x1234 0x1000 0 0 0 flat)) = some (0x5678, .trap 0 none) := by decide

/-- V-DIV-5. -/
theorem test_div8 : seen (fun t => (t.gpr.eax)) (run [0xF6, 0xF3] (regs 0xFF 0 0 0x10 0x1000 0 0 0 flat)) = some (0x0F0F) := by decide

/-- V-IDIV-1. -/
theorem test_idiv32_negative : seen (fun t => (t.gpr.eax, t.gpr.edx)) (run [0xF7, 0xFB] (regs 0xFFFFFFF9 0 0xFFFFFFFF 2 0x1000 0 0 0 flat)) = some (0xFFFFFFFD, 0xFFFFFFFF) := by decide

/-- V-IDIV-2. -/
theorem test_idiv32_divisor_negative : seen (fun t => (t.gpr.eax, t.gpr.edx)) (run [0xF7, 0xFB] (regs 7 0 0 0xFFFFFFFE 0x1000 0 0 0 flat)) = some (0xFFFFFFFD, 1) := by decide

/-- V-IDIV-5. -/
theorem test_idiv8_overflow_traps : seen (fun t => (t.gpr.eax, t.lastTag)) (run [0xF6, 0xFB] (regs 0xFF80 0 0 0xFF 0x1000 0 0 0 flat)) = some (0xFF80, .trap 0 none) := by decide

/-- V-IDIV-6, D25. -/
theorem test_idiv8_min_allowed : seen (fun t => (t.gpr.eax, t.lastTag)) (run [0xF6, 0xFB] (regs 0xFF80 0 0 1 0x1000 0 0 0 flat)) = some (0x0080, .noBranch) := by decide

/-- V-CBW-1. -/
theorem test_cbw : seen (fun t => (t.gpr.eax)) (run [0x66, 0x98] (regs 0x55551280 0 0 0 0x1000 0 0 0 flat)) = some (0x5555FF80) := by decide

/-- V-CWDE-1. -/
theorem test_cwde : seen (fun t => (t.gpr.eax)) (run [0x98] (regs 0xABCD7FFF 0 0 0 0x1000 0 0 0 flat)) = some (0x7FFF) := by decide

/-- V-CDQ-1. -/
theorem test_cdq : seen (fun t => (t.gpr.edx)) (run [0x99] (regs 0x80000000 0 0 0 0x1000 0 0 0 flat)) = some (0xFFFFFFFF) := by decide

/-- V-CWD-1. -/
theorem test_cwd : seen (fun t => (t.gpr.edx)) (run [0x66, 0x99] (regs 1 0 0x12345678 0 0x1000 0 0 0 flat)) = some (0x12340000) := by decide

/-- V-MOV-2. -/
theorem test_mov_al_ah : seen (fun t => (t.gpr.eax)) (run [0x88, 0xE0] (regs 0x1234 0 0 0 0x1000 0 0 0 flat)) = some (0x1212) := by decide

/-- V-MOV-3. -/
theorem test_mov_ah_imm : seen (fun t => (t.gpr.eax)) (run [0xB4, 0xFF] (regs 0 0 0 0 0x1000 0 0 0 flat)) = some (0xFF00) := by decide

/-- V-MOV-4. -/
theorem test_mov_mem_imm : seen (fun t => (bytesAt 0x5000 4 t)) (run [0xC7, 0x00, 0x78, 0x56, 0x34, 0x12] (regs 0x5000 0 0 0 0x1000 0 0 0 flat)) = some ([0x78, 0x56, 0x34, 0x12]) := by decide

/-- V-MOV-5. -/
theorem test_mov_eax_moffs : seen (fun t => t.gpr.eax) (run [0xA1, 0x00, 0x50, 0x00, 0x00] (poke 0x5000 [0x78, 0x56, 0x34, 0x12] flat)) = some 0x12345678 := by decide

/-- V-MOV-6. -/
theorem test_mov_moffs_ax : seen (fun t => (bytesAt 0x5002 2 t)) (run [0x66, 0xA3, 0x02, 0x50, 0x00, 0x00] (regs 0xAAAABBCC 0 0 0 0x1000 0 0 0 flat)) = some ([0xCC, 0xBB]) := by decide

/-- V-LEA-1. -/
theorem test_lea_sib : seen (fun t => (t.gpr.eax)) (run [0x8D, 0x44, 0x98, 0x08] (regs 0x100 0 0 0x10 0x1000 0 0 0 flat)) = some (0x148) := by decide

/-- V-LEA-3. -/
theorem test_lea_truncates : seen (fun t => t.gpr.eax) (run [0x66, 0x8D, 0x04, 0x1E] (regs 0xFFFFFFFF 0 0 1 0 0 0x1FFFF 0 flat)) = some 0xFFFF0000 := by decide

/-- V-MOVZX-1. -/
theorem test_movzx : seen (fun t => (t.gpr.eax)) (run [0x0F, 0xB6, 0xC3] (regs 0 0 0 0x80 0x1000 0 0 0 flat)) = some (0x80) := by decide

/-- V-MOVSX-2. -/
theorem test_movsx : seen (fun t => (t.gpr.eax)) (run [0x0F, 0xBF, 0xC3] (regs 0 0 0 0x8001 0x1000 0 0 0 flat)) = some (0xFFFF8001) := by decide

/-- V-XCHG-1. -/
theorem test_xchg : seen (fun t => (t.gpr.eax, t.gpr.ebx)) (run [0x87, 0xD8] (regs 1 0 0 2 0x1000 0 0 0 flat)) = some (2, 1) := by decide

/-- V-XCHG-2. -/
theorem test_xchg_acc : seen (fun t => (t.gpr.eax, t.gpr.ebx)) (run [0x93] (regs 1 0 0 2 0x1000 0 0 0 flat)) = some (2, 1) := by decide

/-- V-SETcc-1. -/
theorem test_sete_writes_one_byte : seen (fun t => t.gpr.eax) (run [0x0F, 0x94, 0xC0] (withFlags (flg 0 0 0 1 0 0) (ab 0xFFFFFFFF 0 flat))) = some 0xFFFFFF01 := by decide

/-- V-SETcc-3. -/
theorem test_setg : seen (fun t => t.gpr.ecx) (run [0x0F, 0x9F, 0xC1] (withFlags (flg 0 0 0 0 1 1) flat)) = some 1 := by decide

/-- V-PUSH-1. -/
theorem test_push : seen (fun t => (t.gpr.esp, bytesAt 0x0FFC 4 t)) (run [0x50] (regs 0xAABBCCDD 0 0 0 0x1000 0 0 0 flat)) = some (0x0FFC, [0xDD, 0xCC, 0xBB, 0xAA]) := by decide

/-- V-PUSH-2. -/
theorem test_push_esp_pushes_old : seen (fun t => (t.gpr.esp, bytesAt 0x0FFC 4 t)) (run [0x54] (regs 0 0 0 0 0x1000 0 0 0 flat)) = some (0x0FFC, [0x00, 0x10, 0x00, 0x00]) := by decide

/-- V-PUSH-3. -/
theorem test_push_imm8_sign_extended : seen (fun t => (bytesAt 0x0FFC 4 t)) (run [0x6A, 0xFF] (regs 0 0 0 0 0x1000 0 0 0 flat)) = some ([0xFF, 0xFF, 0xFF, 0xFF]) := by decide

/-- V-PUSH-4. -/
theorem test_push_word : seen (fun t => (t.gpr.esp, bytesAt 0x0FFE 2 t)) (run [0x66, 0x6A, 0xFF] (regs 0 0 0 0 0x1000 0 0 0 flat)) = some (0x0FFE, [0xFF, 0xFF]) := by decide

/-- V-PUSH-5. -/
theorem test_push_real_mode_wraps : seen (fun t => (t.gpr.esp, bytesAt 0x2FFFE 2 t)) (run [0x50] { regs 0xBEEF 0 0 0 0x12340000 0 0 0 State.reset with eip := 0x100, seg := { State.reset.seg with ss := ⟨0x2000, 0x20000⟩ } }) = some (0x1234FFFE, [0xEF, 0xBE]) := by decide

/-- V-POP-1. -/
theorem test_pop : seen (fun t => (t.gpr.ebx, t.gpr.esp)) (run [0x5B] (poke 0x0FFC [0x44, 0x33, 0x22, 0x11] (regs 0 0 0 0 0x0FFC 0 0 0 flat))) = some (0x11223344, 0x1000) := by decide

/-- V-POP-2. -/
theorem test_pop_esp_loads : seen (fun t => t.gpr.esp) (run [0x5C] (poke 0x0FFC [0x00, 0x80] (regs 0 0 0 0 0x0FFC 0 0 0 flat))) = some 0x8000 := by decide

/-- V-JCC-1. -/
theorem test_je_taken : seen (fun t => (t.eip, t.lastTag)) (run [0x74, 0x05] (withFlags (flg 0 0 0 1 0 0) (flat))) = some (0x107, .cond true 0x107) := by decide

/-- V-JCC-2. -/
theorem test_je_not_taken : seen (fun t => (t.eip, t.lastTag)) (run [0x74, 0x05] (withFlags (flg 0 0 0 0 0 0) (flat))) = some (0x102, .cond false 0x107) := by decide

/-- V-JCC-4. -/
theorem test_jg_relz : seen (fun t => (t.eip)) (run [0x0F, 0x8F, 0x00, 0x01, 0x00, 0x00] (withFlags (flg 0 0 0 0 0 0) (flat))) = some (0x206) := by decide

/-- V-JMP-2. -/
theorem test_jmp_back : seen (fun t => (t.eip)) (run [0xE9, 0xFB, 0xFF, 0xFF, 0xFF] (withFlags (flg 0 0 0 0 0 0) (flat))) = some (0x100) := by decide

/-- V-JMP-3. -/
theorem test_jmp_truncates_in_real_mode : seen (fun t => t.eip) (run [0xEB, 0x10] State.reset) = some 2 := by decide

/-- V-JMP-5. -/
theorem test_jmp_ax : seen (fun t => (t.eip)) (run [0x66, 0xFF, 0xE0] (withFlags (flg 0 0 0 0 0 0) (ab 0x12345678 0 flat))) = some (0x5678) := by decide

/-- V-JMP-6. -/
theorem test_jmp_target_fault : seen (fun t => (t.eip, t.report)) (run [0xEB, 0x02] { flat with params := { Params.default with access := [⟨.branch, .cs, 0x104, 0x104, none, .fault 13 (some 0)⟩] } }) = some (0x100, some ⟨0, .trap 13 (some 0)⟩) := by decide

/-- V-CALL-1. -/
theorem test_call_relz : seen (fun t => (t.gpr.esp, bytesAt 0x0FFC 4 t, t.eip)) (run [0xE8, 0x00, 0x00, 0x00, 0x00] (withFlags (flg 0 0 0 0 0 0) (ab 0 0 flat))) = some (0x0FFC, [0x05, 0x01, 0x00, 0x00], 0x105) := by decide

/-- V-CALL-3. -/
theorem test_call_esp : seen (fun t => (t.gpr.esp, t.eip)) (run [0xFF, 0xD4] (withFlags (flg 0 0 0 0 0 0) (ab 0 0 flat))) = some (0x0FFC, 0x1000) := by decide

/-- V-RET-1. -/
theorem test_ret : seen (fun t => (t.eip, t.gpr.esp)) (run [0xC3] (withFlags (flg 0 0 0 0 0 0) (poke 0x0FFC [0x05, 0x01] (regs 0 0 0 0 0x0FFC 0 0 0 flat)))) = some (0x105, 0x1000) := by decide

/-- V-RET-2. -/
theorem test_ret_imm16 : seen (fun t => (t.eip, t.gpr.esp)) (run [0xC2, 0x08, 0x00] (withFlags (flg 0 0 0 0 0 0) (poke 0x0FFC [0x05, 0x01] (regs 0 0 0 0 0x0FFC 0 0 0 flat)))) = some (0x105, 0x1008) := by decide

/-- V-CLC-1. -/
theorem test_clc : seen (fun t => (t.flags.cf)) (run [0xF8] (withFlags (flg 1 0 0 0 0 0) (flat))) = some (false) := by decide

/-- V-STC-1. -/
theorem test_stc : seen (fun t => (t.flags.cf)) (run [0xF9] (withFlags (flg 0 0 0 0 0 0) (flat))) = some (true) := by decide

/-- V-CMC-1. -/
theorem test_cmc : seen (fun t => (t.flags.cf)) (run [0xF5] (withFlags (flg 1 0 0 0 0 0) (flat))) = some (false) := by decide

/-- V-NOP-1. -/
theorem test_nop : seen (fun t => (t.eip, t.gpr, t.flags)) (run [0x90] (withFlags (flg 1 1 0 0 0 0) (flat))) = some (0x101, flat.gpr, flg 1 1 0 0 0 0) := by decide

/-- V-HLT-1. -/
theorem test_hlt_real : seen (fun t => (t.eip, t.report)) (run [0xF4] { State.reset with eip := 0x100 }) = some (0x101, some ⟨1, .halt⟩) := by decide

/-- V-HLT-2. -/
theorem test_hlt_cpl3_traps : seen (fun t => (t.eip, t.report)) (run [0xF4] { flat with cpl := 3 }) = some (0x100, some ⟨0, .trap 13 (some 0)⟩) := by decide

/-- V-DEC-17, R180. -/
theorem test_ud2_is_decode_fault : seen (fun t => (t.eip, t.report)) (run [0x0F, 0x0B] flat) = some (0x100, some ⟨0, .decodeFault .reserved⟩) := by decide

/-- Program 5 variant. -/
theorem test_block_is_cut_before_ud2 : seen (fun t => (t.gpr.eax, t.eip, t.report)) (run [0xB8, 0x01, 0x00, 0x00, 0x00, 0x0F, 0x0B] flat) = some (1, 0x105, some ⟨1, .fallthrough⟩) := by decide

/-- Program 6. -/
theorem test_self_modifying_store_refuses : (match step (poke 0x1000 [0xC6, 0x05, 0x08, 0x10, 0x00, 0x00, 0x90, 0x40, 0x40, 0xF4] { flat with eip := 0x1000 }) with | .refused .selfModifyingBlock => true | _ => false) = true := by decide

/-- R43. -/
theorem test_tf_refuses : (match run [0x90] { flat with eflagsOther := 0x102 } with | .refused .singleStepUnmodelled => true | _ => false) = true := by decide

/-- R191. -/
theorem test_ended_run_stops : (match step { flat with report := some ⟨1, .halt⟩ } with | .fault .runEnded => true | _ => false) = true := by decide

/-- Program 1, first block. -/
theorem test_execute_block_program1 : (fun t => (t.gpr.eax, t.gpr.ecx, t.eip, t.report)) (executeBlock (poke 0x1000 [0x31, 0xC0, 0xB9, 0x05, 0x00, 0x00, 0x00, 0x01, 0xC8, 0x49, 0x75, 0xFB, 0xF4] { flat with eip := 0x1000, params := { Params.default with maxBlockLen := 32 } })) = (5, 4, 0x1007, some ⟨5, .cond true 0x1007⟩) := by decide

/-- Program 5. -/
theorem test_execute_block_program5 : (fun t => (t.gpr.eax, t.eip, t.flags, t.report)) (executeBlock (poke 0x1000 [0xB8, 0x0A, 0x00, 0x00, 0x00, 0x31, 0xC9, 0xF7, 0xF1, 0xF4] { flat with eip := 0x1000, flags := flg 0 0 1 0 0 0 })) = (10, 0x1007, flg 0 1 1 1 0 0, some ⟨2, .trap 0 none⟩) := by decide

/-- R134, R201 Example. -/
theorem test_decode_add : (decode .w32 [0x01, 0xD8]).toOption = some (.addRmvRv ⟨.w32, []⟩ .ebx (.reg .eax)) := by decide

/-- V-DEC-23. -/
theorem test_decode_group1_alias_82 : (decode .w32 [0x82, 0xC0, 0x01]).toOption = some (.addRm8Imm8 ⟨.w32, []⟩ .op82 (.reg .eax) 1) := by decide

/-- R230. -/
theorem test_decode_and_imm8 : (decode .w32 [0x83, 0xE0, 0xF0]).toOption = some (.andRmvImm8 ⟨.w32, []⟩ (.reg .eax) 0xF0) := by decide

/-- S1. -/
theorem test_decode_rcr : (decode .w32 [0x66, 0xC1, 0x18, 0x01]).toOption = some (.rcrRmvImm8 ⟨.w32, [.opSize]⟩ (.mem (.based32 .eax .none)) 1) := by decide

/-- S2. -/
theorem test_decode_imul3 : (decode .w32 [0x69, 0xC0, 0x02, 0x00, 0x00, 0x00]).toOption = some (.imulRvRmvImmz ⟨.w32, []⟩ .eax (.reg .eax) (.i32 2)) := by decide

/-- S3. -/
theorem test_decode_mov_sib_disp32 : (decode .w32 [0x8B, 0x84, 0x8B, 0x00, 0x01, 0x00, 0x00]).toOption = some (.movRvRmv ⟨.w32, []⟩ .eax (.mem (.sib .x4 .ecx .ebx (.d32 0x100)))) := by decide

/-- V-DEC-1. -/
theorem test_decode_mov_bx_si : (decode .w16 [0x8B, 0x00]).toOption = some (.movRvRmv ⟨.w16, []⟩ .eax (.mem (.based16 .bxSi .none))) := by decide

/-- V-DEC-2. -/
theorem test_decode_mov_bp_minus_2 : (decode .w16 [0x8B, 0x46, 0xFE]).toOption = some (.movRvRmv ⟨.w16, []⟩ .eax (.mem (.based16 .bp (.d8 0xFE)))) := by decide

/-- V-DEC-3. -/
theorem test_decode_mov_direct16 : (decode .w16 [0x8B, 0x06, 0x34, 0x12]).toOption = some (.movRvRmv ⟨.w16, []⟩ .eax (.mem (.direct16 0x1234))) := by decide

/-- V-DEC-6. -/
theorem test_decode_mov_direct32 : (decode .w32 [0x8B, 0x05, 0x78, 0x56, 0x34, 0x12]).toOption = some (.movRvRmv ⟨.w32, []⟩ .eax (.mem (.direct32 0x12345678))) := by decide

/-- V-DEC-7. -/
theorem test_decode_mov_sib_direct : (decode .w32 [0x8B, 0x04, 0x25, 0x78, 0x56, 0x34, 0x12]).toOption = some (.movRvRmv ⟨.w32, []⟩ .eax (.mem (.sibDirect .x1 .esp 0x12345678))) := by decide

/-- V-DEC-9. -/
theorem test_decode_mov_override : (decode .w32 [0x26, 0x8B, 0x44, 0x24, 0x08]).toOption = some (.movRvRmv ⟨.w32, [.seg .es]⟩ .eax (.mem (.sib .x1 .esp .esp (.d8 8)))) := by decide

/-- V-DEC-11. -/
theorem test_decode_address_size_16 : (decode .w32 [0x67, 0x8B, 0x07]).toOption = some (.movRvRmv ⟨.w32, [.addrSize]⟩ .eax (.mem (.based16 .bx .none))) := by decide

/-- R320. -/
theorem test_decode_push_imm : (decode .w32 [0x6A, 0xFF]).toOption = some (.pushImm8 ⟨.w32, []⟩ 0xFF) := by decide

/-- R336 Example. -/
theorem test_decode_jcc : (decode .w32 [0x0F, 0x84, 0x00, 0x01, 0x00, 0x00]).toOption = some (.jccRelz ⟨.w32, []⟩ .e (.i32 0x100)) := by decide

/-- R345 Example. -/
theorem test_decode_call_indirect : (decode .w32 [0xFF, 0xD0]).toOption = some (.callRmv ⟨.w32, []⟩ (.reg .eax)) := by decide

/-- R140. -/
theorem test_decode_setcc_ignores_reg : (decode .w32 [0x0F, 0x94, 0xF8]).toOption = some (.setccRm8 ⟨.w32, []⟩ .e 7 (.reg .eax)) := by decide

/-- R134. -/
theorem test_decode_hlt : (decode .w16 [0xF4]).toOption = some (.hlt ⟨.w16, []⟩) := by decide

/-- V-DEC-15. -/
theorem test_decode_longest : (decode .w32 [0x66, 0x66, 0x66, 0x66, 0x66, 0x66, 0x66, 0x66, 0x66, 0x66, 0x66, 0x66, 0x66, 0x66, 0x90]).toOption = some (.nop ⟨.w32, List.replicate 14 .opSize⟩) := by decide

/-- V-DEC-16. -/
theorem test_decode_too_long : (match decode .w32 [0x66, 0x66, 0x66, 0x66, 0x66, 0x66, 0x66, 0x66, 0x66, 0x66, 0x66, 0x66, 0x66, 0x66, 0x66, 0x90] with | .error e => e == (.fault .tooLong) | .ok _ => false) = true := by decide

/-- V-DEC-18. -/
theorem test_decode_fe_2_reserved : (match decode .w32 [0xFE, 0xD0] with | .error e => e == (.fault .reserved) | .ok _ => false) = true := by decide

/-- V-LEA-2. -/
theorem test_decode_lea_register_reserved : (match decode .w32 [0x8D, 0xC0] with | .error e => e == (.fault .reserved) | .ok _ => false) = true := by decide

/-- V-MOV-7. -/
theorem test_decode_c6_1_reserved : (match decode .w32 [0xC6, 0xC8, 0x01] with | .error e => e == (.fault .reserved) | .ok _ => false) = true := by decide

/-- V-DEC-21. -/
theorem test_decode_lock_not_admitted : (match decode .w32 [0xF0, 0x01, 0x00] with | .error e => e == (.notAdmitted [0xF0]) | .ok _ => false) = true := by decide

/-- V-DEC-22. -/
theorem test_decode_group2_6_not_admitted : (match decode .w32 [0xD1, 0xF0] with | .error e => e == (.notAdmitted [0xD1, 0xF0]) | .ok _ => false) = true := by decide

/-- V-DEC-13. -/
theorem test_decode_two_overrides : (match decode .w32 [0x2E, 0x3E, 0x8B, 0x00] with | .error e => e == (.multipleSegmentOverride) | .ok _ => false) = true := by decide

/-- R101. -/
theorem test_decode_truncated : (match decode .w32 [0xB8, 0x01, 0x00] with | .error e => e == (.fault .truncated) | .ok _ => false) = true := by decide

/-- V-DEC-24. -/
theorem test_fetch_fault : seen (fun t => (t.eip, t.report)) (step (poke 0x100 [0xB8, 0x01, 0x00] { flat with params := { Params.default with access := [⟨.fetch, .cs, 0x103, 0x103, none, .fault 14 (some 4)⟩] } })) = some (0x100, some ⟨0, .decodeFault (.fetchFault 14 (some 4))⟩) := by decide

/-- V-DEC-4. -/
theorem test_offset_wraps_at_16 : (Sys2Proof.Machine.EA.off (Sys2Proof.Machine.MemForm.ea (.based16 .bxSi .none)) ⟨0, 0, 0, 0xFFFF, 0, 0, 2, 0⟩) = 1 := by decide

/-- V-DEC-2. -/
theorem test_default_segment_bp : Sys2Proof.Machine.MemForm.defaultSeg (.based16 .bp (.d8 0xFE)) = .ss := by decide

/-- V-DEC-8. -/
theorem test_default_segment_esp : Sys2Proof.Machine.MemForm.defaultSeg (.sib .x1 .esp .esp (.d8 8)) = .ss := by decide

/-- S3. -/
theorem test_encode_sib : encode (.movRvRmv ⟨.w32, []⟩ .eax (.mem (.sib .x4 .ecx .ebx (.d32 0x100)))) = [0x8B, 0x84, 0x8B, 0x00, 0x01, 0x00, 0x00] := by decide

/-- S3, R190. -/
theorem test_instruction_length : instructionLength [0x8B, 0x84, 0x8B, 0x00, 0x01, 0x00, 0x00] true = .ok 7 := by decide

/-- R147, R304 Example. -/
theorem test_disassemble_lea : disassemble [0x8D, 0x44, 0x98, 0x08] true = .ok "lea eax, dword ptr [eax+ebx*0x4+0x8]" := by decide

/-- R147, R148. -/
theorem test_disassemble_relative : disassemble [0x74, 0x05] true = .ok "je 0x7" := by decide

/-- R189. -/
theorem test_disassemble_reserved : disassemble [0x0F, 0x0B] true = .invalidEncoding := by decide

/-- R189. -/
theorem test_disassemble_refused : disassemble [0xF3, 0xA4] true = .unsupported := by decide

/-- R187. -/
theorem test_set_get_state : State.setState (ab 1 2 flat) (State.getState (ab 1 2 flat)) = ab 1 2 flat := by decide

/-- R187. -/
theorem test_set_state_refuses_mode_3 : (State.setState flat ((State.getState flat).set 22 3)).refused = some .invalidSnapshot := by decide

/-! ### WellFormed: each check refuses an ill-formed term -/

theorem test_wf_refuses_32_bit_form_under_16 : (Instr.movRvRmv ⟨.w16, []⟩ .eax (.mem (.based32 .eax .none))).wf = false := by decide

theorem test_wf_refuses_16_bit_form_under_32 : (Instr.movRvRmv ⟨.w32, []⟩ .eax (.mem (.based16 .bx .none))).wf = false := by decide

theorem test_wf_refuses_bp_without_disp : (Instr.movRvRmv ⟨.w16, []⟩ .eax (.mem (.based16 .bp .none))).wf = false := by decide

theorem test_wf_refuses_ebp_without_disp : (Instr.movRvRmv ⟨.w32, []⟩ .eax (.mem (.based32 .ebp .none))).wf = false := by decide

theorem test_wf_refuses_esp_base_without_sib : (Instr.movRvRmv ⟨.w32, []⟩ .eax (.mem (.based32 .esp .none))).wf = false := by decide

theorem test_wf_refuses_sib_ebp_without_disp : (Instr.movRvRmv ⟨.w32, []⟩ .eax (.mem (.sib .x1 .eax .ebp .none))).wf = false := by decide

theorem test_wf_refuses_direct16_under_32 : (Instr.movRvRmv ⟨.w32, []⟩ .eax (.mem (.direct16 0))).wf = false := by decide

theorem test_wf_refuses_direct32_under_16 : (Instr.movRvRmv ⟨.w16, []⟩ .eax (.mem (.direct32 0))).wf = false := by decide

theorem test_wf_refuses_sib_under_16 : (Instr.movRvRmv ⟨.w16, []⟩ .eax (.mem (.sibDirect .x1 .eax 0))).wf = false := by decide

theorem test_wf_refuses_wrong_immz : (Instr.addEaxImmz ⟨.w32, []⟩ (.i16 0)).wf = false := by decide

theorem test_wf_refuses_wrong_moffs : (Instr.movAlMoffs8 ⟨.w16, []⟩ (.i32 0)).wf = false := by decide

theorem test_wf_refuses_two_overrides : (Instr.nop ⟨.w16, [.seg .es, .seg .cs]⟩).wf = false := by decide

theorem test_wf_refuses_sixteen_bytes : (Instr.nop ⟨.w16, List.replicate 15 .opSize⟩).wf = false := by decide

theorem test_wf_accepts_fifteen_bytes : (Instr.nop ⟨.w16, List.replicate 14 .opSize⟩).wf = true := by decide

/-! ### Witnesses: states and operands that meet the hypotheses of the statements, clause by clause -/

section Witnesses
open Sys2Proof.Claims

/-- 32-bit code, no prefixes. -/
def p32 : Prefixes := ⟨.w32, []⟩

/-- An operand in memory. -/
def m5000 : Rm := .mem (.direct32 0x5000)

/-- A running block of one unit at 0x4FFF, its bytes 4FFF and 5000. -/
def inBlock : State :=
  { flat with eip := 0x4FFF, block := some ⟨0x4FFF, .prot, [], [⟨0x4FFF, .movR8Imm8 p32 .eax 1⟩]⟩ }

/-- An oracle that faults on one kind of access. -/
def denying (k : AccessKind) (g : SegReg) : State :=
  { flat with params := { Params.default with access := [⟨k, g, 0, 0xFFFFFFFF, none, .fault 14 (some 2)⟩] } }

/-- An oracle with no plain memory. -/
def unmapped : State :=
  { flat with params := { Params.default with access := [⟨.read, .ds, 0, 0xFFFFFFFF, none, .unmodelled⟩] } }

theorem witness_DecodeOfEncodeIsIdentity :
    let i : Instr := .movRmvImmz ⟨.w32, [.seg .es, .opSize, .seg .es, .opSize, .opSize, .opSize]⟩
      (.mem (.sib .x8 .eax .ebp (.d32 0xFFFFFFFF))) (.i16 0xFFFF)
    i.wf = true ∧ i.len = 15 := by decide

theorem witness_DecodedInstructionIsItsBytes : decode .w32 [0xC2, 0x08, 0x00, 0xF4] = .ok (.retImm16 p32 8) := by rfl

theorem witness_ReservedEncodingsFault :
    let l := List.replicate 13 Prefix.opSize
    (⟨.w32, l⟩ : Prefixes).wf = true ∧ l.length ≤ 13 ∧
    ([(0x0F, 0x0B), (0xFE, 0xD0), (0xFE, 0xFF), (0xFF, 0xF8), (0xC6, 0x08), (0xC7, 0xF8), (0x8D, 0xC0)].all
      fun x : Byte × Byte => Prefix.ofByte x.1 == none && reservedPair x.1 x.2) = true ∧
    ([(0x0F, 0x0A), (0xFE, 0xC8), (0xFF, 0xF0), (0xC6, 0x00), (0x8D, 0xBF), (0xF0, 0x90)].all
      fun x : Byte × Byte => Prefix.ofByte x.1 == none && !reservedPair x.1 x.2) = true := by decide

theorem witness_EncodingsWithoutARowAreRefused :
    let l := [Prefix.seg .gs, .addrSize]
    (⟨.w16, l⟩ : Prefixes).wf = true ∧ l.length ≤ 13 ∧
    ([0x06, 0x3F, 0x60, 0x6C, 0x8C, 0x9A, 0xA4, 0xC8, 0xF0, 0xF3, 0xFD].all
      fun b : Byte => Prefix.ofByte b == none && b != 0x0F && !admittedOne b) = true ∧
    ([0x00, 0x7F, 0xA0, 0xB0, 0xC0, 0xFF].all fun b : Byte => !admittedTwo b) = true ∧
    ([(0xC0, 0x30), (0xD3, 0xF7), (0xF6, 0xC8), (0xFF, 0x18), (0xFF, 0x28)].all
      fun x : Byte × Byte => Prefix.ofByte x.1 == none && refusedGroup x.1 x.2) = true := by decide

theorem witness_TwoSegmentOverridesAreRefused :
    let l := List.replicate 13 Prefix.addrSize ++ [.seg .es]
    (⟨.w16, l⟩ : Prefixes).wf = true ∧ l.length ≤ 14 ∧ segOverride l = some .es ∧ SegReg.es ≠ .cs ∧
    ([Prefix.seg .fs].length ≤ 13 ∧ segOverride [.seg .fs] = some .fs ∧ Prefix.ofByte 0x90 = none) := by decide

theorem witness_InstructionsOver15BytesAreTooLong :
    let i : Instr := .movRmvImmz ⟨.w32, [.seg .es, .seg .es, .seg .es, .seg .es, .seg .es]⟩
      (.mem (.sib .x8 .eax .ebp (.d32 0))) (.i32 0)
    partsWf i.layout = true ∧ i.len = 16 ∧
    (⟨.w16, List.replicate 15 .opSize⟩ : Prefixes).wf = true ∧ 15 ≤ (List.replicate 15 Prefix.opSize).length := by
  decide

/-- mod = 3; mod = 0 with rm = 6; rm = 6 with mod = 1; rm = 7 with mod = 2. -/
theorem witness_AddressForms16 :
    readRm .w16 0xC6 [] = .ok (.reg .esi, []) ∧ modField 0xC6 = 3 ∧
    readRm .w16 0x06 [.byte 0x34, .byte 0x12] = .ok (.mem (.direct16 0x1234), []) ∧ modField 0x06 = 0 ∧
    rmField 0x06 = 6 ∧
    readRm .w16 0x46 [.byte 0xFE] = .ok (.mem (.based16 .bp (.d8 0xFE)), []) ∧ modField 0x46 = 1 ∧
    readRm .w16 0x87 [.byte 0, .byte 0x80] = .ok (.mem (.based16 .bx (.d16 0x8000)), []) ∧ modField 0x87 = 2 :=
  ⟨rfl, rfl, rfl, rfl, rfl, rfl, rfl, rfl, rfl⟩

/-- mod = 3; mod = 0 with rm = 5; rm = 5 with mod = 1; SIB with index = 4 and with base = 5, mod = 0 and 1. -/
theorem witness_AddressForms32 :
    readRm .w32 0xC5 [] = .ok (.reg .ebp, []) ∧ modField 0xC5 = 3 ∧
    readRm .w32 0x05 [.byte 1, .byte 2, .byte 3, .byte 4] = .ok (.mem (.direct32 0x04030201), []) ∧
    rmField 0x05 = 5 ∧ modField 0x05 = 0 ∧
    readRm .w32 0x45 [.byte 0x80] = .ok (.mem (.based32 .ebp (.d8 0x80)), []) ∧ modField 0x45 = 1 ∧
    readRm .w32 0x04 [.byte 0x24] = .ok (.mem (.sib .x1 .esp .esp .none), []) ∧ rmField 0x04 = 4 ∧
    regField 0x24 = 4 ∧
    readRm .w32 0x04 [.byte 0xC5, .byte 0, .byte 0, .byte 0, .byte 0x80] =
      .ok (.mem (.sibDirect .x8 .eax 0x80000000), []) ∧ rmField 0xC5 = 5 ∧ regField 0xC5 = 0 ∧
    readRm .w32 0x44 [.byte 0xC5, .byte 0] = .ok (.mem (.sib .x8 .eax .ebp (.d8 0)), []) ∧ modField 0x44 = 1 :=
  ⟨rfl, rfl, rfl, rfl, rfl, rfl, rfl, rfl, rfl, rfl, rfl, rfl, rfl, rfl, rfl⟩

/-- A 16-bit sum that wraps, 30_encoding.md R118's; a 32-bit one with base, index and displacement. -/
theorem witness_OffsetIsTheSumModuloAddressSize :
    (⟨some .ebx, some (.esi, .x1), 0, .w16⟩ : EA).off (regs 0 0 0 0xFFFF 0 0 2 0 flat).gpr = 1 ∧
    (⟨some .eax, some (.edi, .x8), 0xFFFFFFFF, .w32⟩ : EA).off (regs 1 0 0 0 0 0 0 2 flat).gpr = 0x10 := by decide

/-- The bounds of the clauses: bits 15 and 7, AH over EAX, BH over EBX. -/
theorem witness_SubRegisterViewsAlias :
    15 < 16 ∧ 7 < 8 ∧ Reg.index .ebx = 3 ∧ (Reg.index .eax).toNat + 4 = (Reg.index .esp).toNat ∧
    (Reg.index .ebx).toNat + 4 = (Reg.index .edi).toNat ∧ ¬((Reg.index .esp).toNat < 4) := by decide

/-- Four bytes across the top of the address space, and one byte that is none of them. -/
theorem witness_MemoryIsLittleEndian :
    Memory.wf [(0, 1), (0xFFFFFFFF, 2)] = true ∧ 3 < Size.bytes .s32 ∧
    (List.range 4).all (fun k => decide ((2 : Word) ≠ 0xFFFFFFFE + BitVec.ofNat 32 k)) = true := by decide

theorem witness_HostWritesMemoryBytewise :
    Memory.wf flat.mem = true ∧ [0xF4, 0x90].length ≤ 2 ^ 32 ∧ [0xF4, 0x90][1]? = some 0x90 ∧
    (List.range 2).all (fun k => decide ((1 : Word) ≠ 0xFFFFFFFF + BitVec.ofNat 32 k)) = true := by decide

theorem witness_SnapshotRoundTrips :
    flat.eflagsOther &&& statusMask = 0 ∧ Mode.allowsCpl flat.mode flat.cpl.toNat = true := by decide

/-- A snapshot in range at its upper bounds, and one out of range (also for EflagsImagePlacesTheFlags). -/
theorem witness_SnapshotRoundTrips_ranges :
    inRange (List.replicate 10 0xFFFFFFFF ++ List.replicate 6 0xFFFF ++ List.replicate 6 0xFFFFFFFF ++ [2, 1, 1, 3]) ∧
    ¬inRange (List.replicate 26 0xFFFFFFFF) := by
  refine ⟨⟨rfl, fun k h1 h2 => ?_, by decide, by decide, by decide, by decide, by decide, by decide⟩,
    fun h => absurd h.2.2.1 (by decide)⟩
  have : k = 10 ∨ k = 11 ∨ k = 12 ∨ k = 13 ∨ k = 14 ∨ k = 15 := by omega
  rcases this with rfl | rfl | rfl | rfl | rfl | rfl <;> decide

theorem witness_FetchDecodesTheEncodedInstruction :
    let i : Instr := .nop p32
    let s := poke 0x100 [0x90] flat
    i.wf = true ∧ i.pfx.dflt = s.dflt ∧ encode i = [0x90] ∧ s.access .fetch .cs 0x100 1 = .ok ∧
      Memory.read s.mem (s.lin .cs 0x100).toNat = 0x90 := by decide

/-- An oracle that answers `a` to a fetch at 101 in CS and Ok elsewhere. -/
def gap (a : AccessAnswer) : State :=
  { flat with params := { Params.default with access := [⟨.fetch, .cs, 0x101, 0x101, none, a⟩] } }

/-- The last byte of 66 90 that cannot be fetched, for both answers; the default sizes of the three modes. -/
theorem witness_FetchDecodesTheEncodedInstruction_gap :
    let i : Instr := .nop ⟨.w32, [.opSize]⟩
    let s := fun a => poke 0x100 [0x66] (gap a)
    i.wf = true ∧ i.pfx.dflt = (s .unmodelled).dflt ∧ 1 < i.len ∧ (encode i)[0]? = some 0x66 ∧
      (s .unmodelled).access .fetch .cs 0x100 1 = .ok ∧
      Memory.read (s .unmodelled).mem ((s .unmodelled).lin .cs 0x100).toNat = 0x66 ∧
      (s .unmodelled).access .fetch .cs 0x101 1 = .unmodelled ∧
      (s (.fault 14 (some 0))).access .fetch .cs 0x101 1 = .fault 14 (some 0) ∧
      flat.dflt = .w32 ∧ { flat with mode := .v86 }.dflt = .w16 ∧ { flat with mode := .real }.dflt = .w16 ∧
      i.pfx.opSize = .w16 ∧ i.pfx.addrSize = .w32 := by decide

/-- At a block's entry, and inside a block. -/
theorem witness_StepRunsTheDecodedInstruction :
    (let s := poke 0x100 [0x90, 0xF4] flat
     s.refused = none ∧ s.block = none ∧ s.ended = false ∧ s.tf = false ∧ s.decodeAt s.eip = .ok (.nop p32) ∧
      Instr.kind (.nop p32) ≠ .reserved) ∧
    (inBlock.refused = none ∧ inBlock.block.isSome = true ∧
      inBlock.block.all (fun b => b.mode == inBlock.mode && b.todo == [⟨inBlock.eip, .movR8Imm8 p32 .eax 1⟩]) = true) :=
  ⟨⟨rfl, rfl, rfl, rfl, rfl, by decide⟩, rfl, rfl, rfl⟩

theorem witness_ExecuteBlockIsItsSteps :
    flat.params.wf = true ∧ flat.refused = none ∧ flat.block = none ∧ flat.ended = false := by decide

theorem witness_AssembledBlockIsAsSpecified :
    let s := poke 0x100 [0x90, 0xF4] flat
    s.params.wf = true ∧ s.assemble = .block ⟨0x100, .nop p32⟩ [⟨0x101, .hlt p32⟩] := by decide

theorem witness_BlockResultAndEip :
    (let s := poke 0x100 [0x90, 0xF4] flat
     s.refused = none ∧ s.tf = false ∧ (executeBlock s).refused = none ∧
      (executeBlock s).report = some ⟨2, .halt⟩ ∧ (executeBlock s).lastTag = .halt) ∧
    (let s := poke 0x100 [0x90, 0xF4] { flat with cpl := 3 }
     s.refused = none ∧ s.tf = false ∧ (executeBlock s).refused = none ∧
      (executeBlock s).report = some ⟨1, .trap 13 (some 0)⟩) ∧
    (let s := poke 0x100 [0x0F, 0x0B] flat
     s.refused = none ∧ s.tf = false ∧ s.assemble = .fault .reserved) := by decide

theorem witness_EntryStops :
    ({ flat with refused := some .selfModifyingBlock } : State).refused = some .selfModifyingBlock ∧
    ({ flat with eflagsOther := 0x102 } : State).tf = true ∧
    (let s := poke 0x100 [0x8D, 0xC0] flat
     s.refused = none ∧ s.block = none ∧ s.ended = false ∧ s.tf = false ∧
      asUnit (s.decodeAt s.eip) = .error (.fault .reserved)) ∧
    asUnit ((poke 0x100 [0x06] flat).decodeAt 0x100) = .error (.notAdmitted [0x06]) ∧
    asUnit ((poke 0x100 [0x26, 0x2E] flat).decodeAt 0x100) = .error .multipleSegmentOverride ∧
    (gap .unmodelled).tf = false ∧ (State.access { gap .unmodelled with eip := 0x101 } .fetch .cs 0x101 1) = .unmodelled :=
  ⟨rfl, by decide, ⟨rfl, rfl, rfl, rfl, rfl⟩, rfl, rfl, rfl, rfl⟩

theorem witness_InvariantAtReset : ({ Params.default with resetEdx := 0xFFFFFFFF } : Params).wf = true := by decide

/-- A step from a state that meets the invariant, to a next state and to the end of the run. -/
theorem witness_EveryStepKeepsTheInvariant :
    (poke 0x100 [0x90, 0xF4] flat).wf = true ∧ seen (fun t => t.eip) (run [0x90] flat) = some 0x101 := by decide

theorem witness_InvariantExcludesInternalFaults :
    let s := { flat with report := some ⟨1, .halt⟩ }
    s.wf = true ∧ step s = .fault .runEnded :=
  ⟨by decide, rfl⟩

/-- An instruction that answers a next state: SystemStateIsNeverWritten, OtherRegistersUnchanged,
OtherFlagsUnchanged, OtherMemoryUnchanged, TagDecidesEipAndTrapsArePrecise. -/
theorem witness_Frames :
    let i : Instr := .addRmvRv p32 .eax m5000
    (∃ t, exec i flat = .next t) ∧ Instr.kind i ≠ .reserved ∧ Reg.ebx ∉ written i ∧
      FlagName.cf ∉ flagsWritten (.incRv p32 .eax) ∧ stored i flat = some (0x5000, 4) ∧
      (List.range 4).all (fun k => decide ((0x5004 : Word) ≠ 0x5000 + BitVec.ofNat 32 k)) = true :=
  ⟨⟨_, rfl⟩, by decide, by decide, by decide, by decide, by decide⟩

/-- The four outcomes of the checks: a fault, no plain memory, a store into the running block, completion. -/
theorem witness_ChecksDecideTheOutcomeInOrder :
    let i : Instr := .addRmvRv p32 .eax m5000
    firstFailure (denying .write .ds) (checks i (denying .write .ds)) = .fault 14 (some 2) ∧
    firstFailure unmapped (checks i unmapped) = .unmodelled ∧
    firstFailure inBlock (checks i inBlock) = .ok ∧ storeHits i inBlock = true ∧
    firstFailure flat (checks i flat) = .ok ∧ storeHits i flat = false := by decide

/-- Flags that differ in all that ADC does not read. -/
theorem witness_OnlyTheNamedFlagsAreRead :
    (∀ x ∈ flagsRead (.adcAlImm8 p32 1), flagOf (flg 0 1 1 1 1 1) x = flagOf (flg 0 0 0 0 0 0) x) ∧
    (∀ x ∈ flagsRead (.jccRel8 p32 .g 1), flagOf (flg 1 1 1 0 0 0) x = flagOf (flg 0 0 0 0 0 0) x) := by decide

theorem witness_ModeBearsOnlyOnStackAndHlt :
    isHlt (.nop p32) = false ∧ usesStack (.nop p32) = false ∧ State.reset.mode ≠ .prot := by decide

/-- A memory operand that can be read and written, and a source that can be read: AddAndAdcResult,
SubSbbAndCmpResult, LogicResult, TestResult, IncAndDecKeepCarry, NegAndNotResult, MovResult, XchgResult. -/
theorem witness_Operands :
    (let f : AluForm := .rmvRv .eax m5000
     flat.readable (f.size p32) (f.dst p32) = true ∧ srcReadable flat (f.size p32) (f.src p32) = true ∧
      flat.writable (f.size p32) (f.dst p32) = true) ∧
    (let f : AluForm := .rvRmv .eax m5000
     flat.readable (f.size p32) (f.dst p32) = true ∧ srcReadable flat (f.size p32) (f.src p32) = true) ∧
    (let f : TestForm := .rmvImmz m5000 (.i32 1)
     flat.readable (f.size p32) (f.src1 p32) = true ∧ srcReadable flat (f.size p32) (f.src2 p32) = true) ∧
    (let f : OneForm := .rm8 m5000
     flat.readable (f.size p32) (f.ref p32) = true ∧ flat.writable (f.size p32) (f.ref p32) = true) ∧
    (let f : F6Form := .rmv m5000
     flat.readable (f.size p32) (f.ref p32) = true ∧ flat.writable (f.size p32) (f.ref p32) = true) ∧
    (let f : MovForm := .moffsvEax (.i32 0x5000)
     srcReadable flat (f.size p32) (f.src p32) = true ∧ flat.writable (f.size p32) (f.dst p32) = true) ∧
    (let f : XchgForm := .rm8R8 .esp m5000
     flat.readable (f.size p32) (f.op1 p32) = true ∧ flat.writable (f.size p32) (f.op1 p32) = true) := by decide

/-- The counts at which RolAndRorResult, RclAndRcrResult, ShlAndShrResult and SarResult change clause: 32 (0 modulo
32), 1, the width, above it; and for RCL and RCR the width plus one. -/
theorem witness_ShiftCounts :
    let s := { flat with gpr := { flat.gpr with ecx := 9 } }
    s.readable .s8 (rmRef p32 m5000) = true ∧ s.writable .s8 (rmRef p32 m5000) = true ∧
    ShiftForm.count s (.rm8Imm8 m5000 32) % 32 = 0 ∧ ShiftForm.count s (.rm8One m5000) % 32 = 1 ∧
    ShiftForm.count s (.rm8Imm8 m5000 8) % 32 = 8 ∧ ShiftForm.count s (.rm8Cl m5000) % 32 = 9 ∧
    carryCount s (ShiftForm.count s (.rm8Cl m5000)) % (Size.bits .s8 + 1) = 0 ∧
    carryCount s (ShiftForm.count s (.rm8One m5000)) % (Size.bits .s8 + 1) = 1 := by decide

/-- A shift above the width of a byte uses one draw, at the width none: ShlAndShrResult. -/
theorem test_shift_draws :
    (seen (fun t => t.draws) (exec (.shlRm8Imm8 p32 m5000 9) flat),
      seen (fun t => t.draws) (exec (.shlRm8Imm8 p32 m5000 8) flat)) = (some 1, some 0) := by decide

/-- `peek` shows the next byte, and reading goes on from it (30_encoding.md R101). -/
theorem test_peek :
    peek [.byte 0x90, .byte 0xF4] = .ok 0x90 ∧ take1 [.byte 0x90, .byte 0xF4] = .ok (0x90, [.byte 0xF4]) ∧
    peek [] = .error (.fault .truncated) := ⟨rfl, rfl, rfl⟩

/-- A division that succeeds and one that fails, unsigned and signed, at the bounds of the quotient. -/
theorem witness_DivideResultOrError :
    let s := fun a d => regs a 0 d 1 0 0 0 0 flat
    (s 0xFFFFFFFF 0).readable .s32 (.reg .ebx) = true ∧
    divFails (s 0xFFFFFFFF 0) .s32 (.reg .ebx) = false ∧ divFails (s 0 1) .s32 (.reg .ebx) = true ∧
    idivFails (s 0x80000000 0xFFFFFFFF) .s32 (.reg .ebx) = false ∧ idivFails (s 0x80000000 0) .s32 (.reg .ebx) = true ∧
    divFails (s 0 0) .s32 (.reg .ecx) = true := by decide

theorem witness_SignExtensionOfTheAccumulator :
    Prefixes.opSize ⟨.w32, [.opSize]⟩ = .w16 ∧ Prefixes.opSize p32 = .w32 := by decide

/-- Reads and a write that the oracle lets pass: MultiplyResult, ImulTwoAndThreeOperandsResult,
LeaAndExtendingMovesResult, SetccResult. -/
theorem witness_ReadsOfOneOperand :
    flat.readable .s8 (rmRef p32 m5000) = true ∧ flat.readable .s16 (rmRef p32 m5000) = true ∧
    flat.readable .s32 (rmRef p32 m5000) = true ∧ flat.writable .s8 (rmRef p32 m5000) = true := by decide

/-- The stack can be pushed to and popped from, and control can pass: PushResult, PopResult, JccResult, JmpResult,
CallResult, RetResult. -/
theorem witness_StackAndControl :
    flat.canPush .s32 = true ∧ flat.canPop .s32 = true ∧ flat.canBranch 0xFFFFFFFF = true ∧
    srcReadable flat .s32 (PushForm.src p32 (.rmv m5000)) = true ∧ flat.canBranch (returned p32 flat) = true ∧
    condition .ne flat.flags = true ∧ condition .e flat.flags = false := by decide

theorem witness_HltHaltsOrIsPrivileged :
    State.reset.mode = .real ∧ flat.mode = .prot ∧ flat.cpl = 0 ∧ ({ flat with cpl := 3 } : State).cpl ≠ 0 ∧
    ({ State.reset with mode := .v86, cpl := 3 } : State).mode = .v86 := by decide

end Witnesses

end Sys2Proof.Tests
end

section
/-! PROOFS. State, first part: the offset of an address expression, the register views and the EFLAGS image, each said
once as a value or bit by bit (10_state.md R31 to R33, R42, R54). Settles O10, O11, O17. -/

namespace Sys2Proof.Machine

open Sys2Proof.Claims

/-! ### The offset of an address expression (R54, R126) -/

/-- A wrapped sum is the exact sum modulo the width, however its middle part was wrapped before. -/
theorem toNat_add_add {w : Nat} (b x d : BitVec w) {n : Nat} (hx : x.toNat = n % 2 ^ w) :
    (b + x + d).toNat = (b.toNat + n + d.toNat) % 2 ^ w := by
  simp [BitVec.toNat_add, hx]

/-- A register times a scale, wrapped. -/
theorem toNat_mul_factor {w : Nat} (v : BitVec w) (sc : Scale) :
    (v * BitVec.ofNat w (Scale.factor sc)).toNat = v.toNat * Scale.factor sc % 2 ^ w := by
  simp [BitVec.toNat_mul, BitVec.toNat_ofNat]

/-- The scaled index of an address expression at width w, each register read by `reg`. -/
theorem toNat_elim_index {w : Nat} (reg : Reg → BitVec w) (ix : Option (Reg × Scale)) :
    (ix.elim 0 fun x => reg x.1 * BitVec.ofNat w (Scale.factor x.2)).toNat =
      (ix.elim 0 fun x => (reg x.1).toNat * Scale.factor x.2) % 2 ^ w := by
  cases ix with
  | none => simp
  | some x => exact toNat_mul_factor _ _

theorem toNat_elim_base {w : Nat} (reg : Reg → BitVec w) (base : Option Reg) :
    (base.elim 0 reg).toNat = base.elim 0 fun r => (reg r).toNat := by
  cases base <;> simp

theorem Gprs.low16_toNat (g : Gprs) (r : Reg) : (g.low16 r).toNat = (g.get r).toNat % 2 ^ 16 := by
  simp [Gprs.low16, Gprs.view]

theorem EA.off32_toNat (ea : EA) (g : Gprs) : (ea.off32 g).toNat =
    ((ea.base.elim 0 fun r => (g.get r).toNat) +
      (ea.index.elim 0 fun x => (g.get x.1).toNat * Scale.factor x.2) + ea.disp.toNat) % 2 ^ 32 := by
  rw [EA.off32, toNat_add_add _ _ _ (toNat_elim_index g.get ea.index), toNat_elim_base]

theorem EA.off16_toNat (ea : EA) (g : Gprs) : (ea.off16 g).toNat =
    ((ea.base.elim 0 fun r => (g.get r).toNat % 2 ^ 16) +
      (ea.index.elim 0 fun x => (g.get x.1).toNat % 2 ^ 16 * Scale.factor x.2) + ea.disp.toNat) % 2 ^ 16 := by
  rw [EA.off16, toNat_add_add _ _ _ (toNat_elim_index g.low16 ea.index), toNat_elim_base, BitVec.toNat_setWidth]
  simp only [Gprs.low16_toNat, Nat.add_mod_mod]

/-- Settles O10: the wrapped sum at each address size is the exact sum modulo 2^asize. -/
theorem offsetIsTheSumModuloAddressSize : Obligations.OffsetIsTheSumModuloAddressSize := by
  intro ea g
  constructor
  · intro h
    simpa only [EA.off, h] using ea.off32_toNat g
  · intro h
    rw [EA.off, h, BitVec.toNat_setWidth_of_le (by decide), EA.off16_toNat]

/-! ### The register views (R31 to R33) -/

/-- The 8-bit views 0 to 3 are the low bytes of registers 0 to 3. -/
theorem Reg.byteHome_of_low {r : Reg} (h : r.index.toNat < 4) : Reg.byteHome r = r ∧ Reg.byteHigh r = false := by
  revert h; cases r <;> decide

/-- The 8-bit views 4 to 7 are bits 15:8 of registers 0 to 3. -/
theorem Reg.byteHome_of_high {r : Reg} (h : ¬ r.index.toNat < 4) (q : Reg) :
    Reg.byteHigh r = true ∧ (q = Reg.byteHome r ↔ q.index.toNat = r.index.toNat - 4) := by
  revert h; cases r <;> cases q <;> decide

/-- One bit of any register after a write through a view: the view's bit where the view lies, else as before. -/
theorem Gprs.getLsbD_get_setView (g : Gprs) (z : Size) (r q : Reg) (v : BitVec z.bits) (k : Nat) :
    ((g.setView z r v).get q).getLsbD k =
      if q = Reg.home z r ∧ Reg.viewLow z r ≤ k ∧ k < Reg.viewLow z r + z.bits then
        v.getLsbD (k - Reg.viewLow z r)
      else (g.get q).getLsbD k := by
  by_cases hq : q = Reg.home z r
  · subst hq
    simp [Gprs.get_setView_bit]
  · simp [Gprs.get_setView_other g z v hq, hq]

/-- One bit of a view is the bit of the register it lies in. -/
theorem Gprs.getLsbD_view (g : Gprs) (z : Size) (r : Reg) {k : Nat} (hk : k < z.bits) :
    (g.view z r).getLsbD k = (g.get (Reg.home z r)).getLsbD (Reg.viewLow z r + k) := by
  cases z with
  | s32 => simp [Gprs.view, Reg.home, Reg.viewLow]
  | s16 => simpa [Gprs.view, Reg.home, Reg.viewLow] using fun _ => hk
  | s8 => simpa [Gprs.view, Reg.home, Reg.viewLow] using fun _ => hk

/-- Settles O11: each clause is one bit of a view, at the register and the bit where the view lies. -/
theorem subRegisterViewsAlias : Obligations.SubRegisterViewsAlias := by
  intro g r q k
  refine ⟨fun v => Gprs.get_set g r q v, fun v => ?_, fun v => ?_, rfl, fun hk => ?_, fun hk hr => ?_,
    fun hk hq => ?_⟩
  · simpa [Reg.home, Reg.viewLow] using g.getLsbD_get_setView .s16 r q v k
  · by_cases hr : r.index.toNat < 4
    · obtain ⟨hhome, hlow⟩ := Reg.byteHome_of_low hr
      simpa [Reg.home, Reg.viewLow, hr, hhome, hlow] using g.getLsbD_get_setView .s8 r q v k
    · obtain ⟨hhigh, hhome⟩ := Reg.byteHome_of_high hr q
      simpa [Reg.home, Reg.viewLow, hr, hhome, hhigh] using g.getLsbD_get_setView .s8 r q v k
  · simpa [Reg.home, Reg.viewLow] using g.getLsbD_view .s16 r hk
  · obtain ⟨hhome, hlow⟩ := Reg.byteHome_of_low hr
    simpa [Reg.home, Reg.viewLow, hhome, hlow] using g.getLsbD_view .s8 r hk
  · obtain ⟨hhigh, hhome⟩ := Reg.byteHome_of_high (r := r) (by omega) q
    simpa [Reg.home, Reg.viewLow, hhigh, ← hhome.mpr (by omega), Nat.add_comm] using g.getLsbD_view .s8 r hk

/-! ### The EFLAGS image (R42) -/

/-- The positions of CF, PF, AF, ZF, SF, OF in the EFLAGS image (R42). -/
def statusBits : List Nat := [0, 2, 4, 6, 7, 11]

theorem statusMask_getLsbD (k : Nat) : statusMask.getLsbD k = decide (k ∈ statusBits) := by
  by_cases hk : k < 32
  · exact (by decide : ∀ k < 32, statusMask.getLsbD k = decide (k ∈ statusBits)) k hk
  · rw [BitVec.getLsbD_of_ge _ _ (Nat.le_of_not_lt hk)]
    simp [statusBits]
    omega

theorem bitWord_shift_getLsbD (b : Bool) {j : Nat} (hj : j < 32) (k : Nat) :
    (bitWord b <<< j).getLsbD k = (decide (k = j) && b) := by
  cases b with
  | false => simp [bitWord]
  | true =>
    change (BitVec.twoPow 32 j).getLsbD k = (decide (k = j) && true)
    simp [BitVec.getLsbD_twoPow, hj, eq_comm]

/-- A word with the status bits cleared. -/
theorem clearStatus_getLsbD (w : Word) (k : Nat) :
    (w &&& ~~~statusMask).getLsbD k = (!decide (k ∈ statusBits) && w.getLsbD k) := by
  by_cases hk : k < 32
  · simp only [BitVec.getLsbD_and, BitVec.getLsbD_not, statusMask_getLsbD, hk, decide_true, Bool.true_and,
      Bool.and_comm]
  · simp [BitVec.getLsbD_of_ge w k (Nat.le_of_not_lt hk)]

/-- The level a snapshot's mode allows, by the mode's number (R48, R187). -/
theorem Mode.allowsCpl_ofNumber_iff {w : Word} (hw : w.toNat ≤ 2) (c : Nat) :
    Mode.allowsCpl (Mode.ofNumber w) c = true ↔ (w.toNat = 0 → c = 0) ∧ (w.toNat = 2 → c = 3) := by
  unfold Mode.ofNumber
  split
  · next h => simp [h, Mode.allowsCpl]
  · next h => simp [h, Mode.allowsCpl]
  · next h0 h1 =>
    have h2 : w.toNat = 2 := by simp only [imp_false] at h0 h1; omega
    simp [h2, Mode.allowsCpl]

/-- The selectors of a snapshot are words 10 to 15 (R187). -/
theorem selectorWords_all_iff (a : List Word) :
    ([10, 11, 12, 13, 14, 15].all fun k => decide ((snapWord a k).toNat ≤ 0xFFFF)) = true ↔
      ∀ k, 10 ≤ k → k ≤ 15 → (a.getD k 0).toNat ≤ 0xFFFF := by
  simp only [List.all_eq_true, decide_eq_true_eq]
  exact ⟨fun h k h1 h2 => h k (by simp; omega), fun h k hk => h k (by simp at hk; omega) (by simp at hk; omega)⟩

/-- The model's test of a snapshot is the range condition of R187. -/
theorem snapshotValid_iff (a : List Word) : snapshotValid a = true ↔ inRange a := by
  simp only [snapshotValid, Bool.and_eq_true, selectorWords_all_iff, beq_iff_eq, decide_eq_true_eq, inRange, and_assoc]
  refine and_congr_right fun _ => and_congr_right fun _ => and_congr_right fun hm => ?_
  rw [Mode.allowsCpl_ofNumber_iff hm]
  rfl

/-- The fields of the EFLAGS word after a snapshot in range is written (R42, R187). -/
theorem State.setState_eflags_fields (s : State) {a : List Word} (h : inRange a) :
    (s.setState a).flags = flagsOf (a.getD 9 0) ∧ (s.setState a).eflagsOther = a.getD 9 0 &&& ~~~statusMask := by
  rw [State.setState, if_pos ((snapshotValid_iff a).mpr h)]
  exact ⟨rfl, rfl⟩

/-- The image's bits: each flag at its place, the other bits those of `eflagsOther`. -/
theorem State.eflags_getLsbD (s : State) (k : Nat) : s.eflags.getLsbD k =
    ((!decide (k ∈ statusBits) && s.eflagsOther.getLsbD k) || (decide (k = 0) && s.flags.cf) ||
      (decide (k = 2) && s.flags.pf) || (decide (k = 4) && s.flags.af) || (decide (k = 6) && s.flags.zf) ||
      (decide (k = 7) && s.flags.sf) || (decide (k = 11) && s.flags.of)) := by
  have h0 : (bitWord s.flags.cf).getLsbD k = (decide (k = 0) && s.flags.cf) := by
    simpa using bitWord_shift_getLsbD s.flags.cf (j := 0) (by decide) k
  simp only [State.eflags, BitVec.getLsbD_or, clearStatus_getLsbD, h0, bitWord_shift_getLsbD, Nat.reduceLT]

/-- Settles O17: the image and the words a snapshot sets, bit by bit. -/
theorem eflagsImagePlacesTheFlags : Obligations.EflagsImagePlacesTheFlags := by
  refine ⟨fun s k => ?_, fun s a h => ?_⟩
  · rw [State.eflags_getLsbD]
    split
    case h_7 h0 h2 h4 h6 h7 h11 =>
      simp only [imp_false] at h0 h2 h4 h6 h7 h11
      simp [statusBits, h0, h2, h4, h6, h7, h11]
    all_goals simp [statusBits]
  · obtain ⟨hflags, hother⟩ := s.setState_eflags_fields h
    refine ⟨hflags, fun k => ?_⟩
    rw [hother, clearStatus_getLsbD]
    simp [statusBits]

end Sys2Proof.Machine
end

section
/-! PROOFS. State, second part: which flags an instruction reads and writes (10_state.md R41, R44). Both claims are
about two runs from states that differ in their flags alone. `BodyFlags r w` says how two such runs of a body end; it is
proved from a body's parts, so each shared body has one lemma, and `exec_flags` names the body of each instruction.
Settles O29 (the two runs the same) and O33. -/

namespace Sys2Proof.Machine

open Sys2Proof.Claims

/-! ### Two runs that differ in their flags (R41, R44) -/

/-- `g` agrees with `f` on the flags of `r`. -/
def Held (r : List FlagName) (f g : Flags) : Prop := ∀ x ∈ r, flagOf g x = flagOf f x

/-- How two runs from the flags `f` and `g` end, in `f'` and `g'`: each flag is left as it was in both, or is one of
`w` and gets the same value in both. -/
def Follows (w : List FlagName) (f g f' g' : Flags) : Prop :=
  ∀ x, (flagOf f' x = flagOf f x ∧ flagOf g' x = flagOf g x) ∨ (x ∈ w ∧ flagOf g' x = flagOf f' x)

/-- A part of a unit that no flag bears on. -/
def FlagFree {α : Type} (rd : State → α) : Prop := ∀ (s : State) (f : Flags), rd { s with flags := f } = rd s

/-- A body reads no flag but those of `r` and stages no flag but those of `w`. -/
def BodyFlags (r w : List FlagName) (body : State → Except Stop Effect) : Prop :=
  ∀ (s : State) (f : Flags), Held r s.flags f →
    match body s with
    | .ok e => ∃ f', body { s with flags := f } = .ok { e with flags := f' } ∧ Follows w s.flags f e.flags f'
    | .error x => body { s with flags := f } = .error x

/-- A unit reads no flag but those of `r` and writes no flag but those of `w`. -/
def UnitFlags (r w : List FlagName) (unit : State → Out) : Prop :=
  ∀ (s : State) (f : Flags), Held r s.flags f →
    match unit s with
    | .next t => ∃ f', unit { s with flags := f } = .next { t with flags := f' } ∧ Follows w s.flags f t.flags f'
    | .refused x => unit { s with flags := f } = .refused x
    | .fault x => unit { s with flags := f } = .fault x

/-- A computation on flags, with a value and the flags it leaves, reads no flag but those of `r` and sets no flag but
those of `w`. -/
def OpFlags (r w : List FlagName) {α : Type} (op : Flags → α × Flags) : Prop :=
  ∀ f g, Held r f g → (op g).1 = (op f).1 ∧ Follows w f g (op f).2 (op g).2

theorem Follows.unchanged (w : List FlagName) (f g : Flags) : Follows w f g f g := fun _ => .inl ⟨rfl, rfl⟩

theorem Follows.same {w : List FlagName} (hw : ∀ x, x ∈ w) (f g f' : Flags) : Follows w f g f' f' :=
  fun x => .inr ⟨hw x, rfl⟩

/-! ### Bodies from their parts -/

theorem BodyFlags.ok {r w : List FlagName} {e : State → Effect}
    (he : ∀ s f, Held r s.flags f →
      ∃ f', e { s with flags := f } = { e s with flags := f' } ∧ Follows w s.flags f (e s).flags f') :
    BodyFlags r w fun s => .ok (e s) := by
  intro s f hf
  obtain ⟨f', hrun, hfol⟩ := he s f hf
  exact ⟨f', congrArg _ hrun, hfol⟩

/-- A body that stages no flag. -/
theorem BodyFlags.ok_unchanged {r w : List FlagName} {e : State → Effect} (hs : ∀ s, (e s).flags = s.flags)
    (he : ∀ s f, e { s with flags := f } = { e s with flags := f }) : BodyFlags r w fun s => .ok (e s) :=
  .ok fun s f _ => ⟨f, he s f, by rw [hs]; exact .unchanged w s.flags f⟩

theorem BodyFlags.error {r w : List FlagName} (x : Stop) : BodyFlags r w fun _ => .error x := fun _ _ _ => rfl

theorem BodyFlags.ite {r w : List FlagName} {c : State → Prop} {d : ∀ s, Decidable (c s)}
    {a b : State → Except Stop Effect} (hc : ∀ s f, Held r s.flags f → (c { s with flags := f } ↔ c s))
    (ha : BodyFlags r w a) (hb : BodyFlags r w b) : BodyFlags r w fun s => @ite _ (c s) (d s) (a s) (b s) := by
  intro s f hf
  by_cases h : c s
  · simpa only [if_pos h, if_pos ((hc s f hf).mpr h)] using ha s f hf
  · simpa only [if_neg h, if_neg (mt (hc s f hf).mp h)] using hb s f hf

/-- A read that no flag bears on, then the rest of the body. -/
theorem BodyFlags.bind {r w : List FlagName} {α : Type} {rd : State → Except Stop α}
    {k : α → State → Except Stop Effect} (hrd : FlagFree rd) (hk : ∀ a, BodyFlags r w (k a)) :
    BodyFlags r w fun s => rd s >>= fun a => k a s := by
  intro s f hf
  simp only [hrd s f]
  cases rd s with
  | error x => rfl
  | ok a => exact hk a s f hf

/-- A body, then a write that carries the staged flags along. -/
theorem BodyFlags.andThen {r w : List FlagName} {b : State → Except Stop Effect}
    {post : State → Effect → Except Stop Effect} (hb : BodyFlags r w b)
    (hpost : ∀ s f e g, Held r s.flags f →
      post { s with flags := f } { e with flags := g } = (post s e).map fun e' => { e' with flags := g })
    (hkeep : ∀ s e e', post s e = .ok e' → e'.flags = e.flags) : BodyFlags r w fun s => b s >>= post s := by
  intro s f hf
  have hbody := hb s f hf
  cases hs : b s with
  | error x =>
    simp only [hs] at hbody
    simp only [hs, hbody]
    rfl
  | ok e =>
    simp only [hs] at hbody
    obtain ⟨f', hrun, hfol⟩ := hbody
    simp only [hs, hrun, Bind.bind, Except.bind, hpost s f e f' hf]
    cases hp : post s e with
    | error x => rfl
    | ok e' => exact ⟨f', rfl, by rwa [hkeep s e e' hp]⟩

theorem runUnit_flags {r w : List FlagName} {body : State → Except Stop Effect} {len : Nat}
    (h : BodyFlags r w body) : UnitFlags r w fun s => runUnit len (body s) s := by
  intro s f hf
  have hbody := h s f hf
  cases hs : body s with
  | error x =>
    simp only [hs] at hbody
    simp only [hs, hbody]
    cases x with
    | trap v c => exact ⟨f, rfl, .unchanged w s.flags f⟩
    | refuse y => rfl
  | ok e =>
    simp only [hs] at hbody
    obtain ⟨f', hrun, hfol⟩ := hbody
    have hhits : Effect.hitsBlock { e with flags := f' } { s with flags := f } = e.hitsBlock s := rfl
    simp only [runUnit, hs, hrun, hhits]
    cases e.hitsBlock s with
    | true => rfl
    | false => exact ⟨f', rfl, hfol⟩

/-! ### Reads and writes -/

theorem State.readRef_flagFree (z : Size) (ref : Ref) : FlagFree fun s => s.readRef z ref := fun _ _ => rfl

theorem State.checkTarget_flagFree {t : State → Word} (ht : FlagFree t) : FlagFree fun s => s.checkTarget (t s) :=
  fun s f => congrArg s.checkTarget (ht s f)

theorem State.memWrite_setFlags (s : State) (f g : Flags) (sg : SegReg) (off : Word) (z : Size) (v : BitVec z.bits)
    (e : Effect) : State.memWrite { s with flags := f } sg off z v { e with flags := g } =
      (s.memWrite sg off z v e).map fun e' => { e' with flags := g } := by
  have hc : State.check { s with flags := f } .write sg off z.bytes = s.check .write sg off z.bytes := rfl
  simp only [State.memWrite, hc, bind, Except.bind]
  cases s.check .write sg off z.bytes <;> rfl

theorem State.writeRef_setFlags (s : State) (f g : Flags) (z : Size) (ref : Ref) (v : BitVec z.bits) (e : Effect) :
    State.writeRef { s with flags := f } z ref v { e with flags := g } =
      (s.writeRef z ref v e).map fun e' => { e' with flags := g } := by
  cases ref with
  | reg r => rfl
  | mem sg ea => exact s.memWrite_setFlags f g sg _ z v e

theorem State.push_setFlags (s : State) (f g : Flags) (z : Size) (v : BitVec z.bits) (e : Effect) :
    State.push { s with flags := f } z v { e with flags := g } =
      (s.push z v e).map fun e' => { e' with flags := g } := by
  have hw := s.memWrite_setFlags f g .ss (s.pushSp z.bytes) z v e
  have hsp : State.pushSp { s with flags := f } z.bytes = s.pushSp z.bytes := rfl
  simp only [State.push, hsp, hw, bind, Except.bind]
  cases s.memWrite .ss (s.pushSp z.bytes) z v e <;> rfl

/-- A body that ends by writing an operand: the value may be computed from the flags the unit reads. -/
theorem BodyFlags.write {r w : List FlagName} {z : Size} {ref : Ref} {v : State → BitVec z.bits}
    {e : State → Effect}
    (hv : ∀ s f, Held r s.flags f → v { s with flags := f } = v s) (he : BodyFlags r w fun s => .ok (e s)) :
    BodyFlags r w fun s => s.writeRef z ref (v s) (e s) :=
  BodyFlags.andThen (post := fun s e => s.writeRef z ref (v s) e) he
    (fun s f e g hf => by rw [hv s f hf, State.writeRef_setFlags])
    (fun s e e' h => by rw [State.writeRef_ok h, Effect.put_flags])

/-! ### The shared bodies -/

theorem aluBody_flags {r w : List FlagName} {op : AluOp} {z : Size} {dst : Ref}
    {src : State → Except Stop (BitVec z.bits)} (hop : ∀ n a b, OpFlags r w fun f => op n f a b)
    (hsrc : FlagFree src) : BodyFlags r w fun s => aluBody op z dst (src s) s :=
  .bind (State.readRef_flagFree z dst) fun a => .bind hsrc fun b =>
    .write (fun s f hf => (hop z.bits a b s.flags f hf).1)
      (.ok fun s f hf => ⟨_, rfl, (hop z.bits a b s.flags f hf).2⟩)

theorem compareBody_flags {r w : List FlagName} {op : AluOp} {z : Size} {ref : Ref}
    {src : State → Except Stop (BitVec z.bits)} (hop : ∀ n a b, OpFlags r w fun f => op n f a b)
    (hsrc : FlagFree src) : BodyFlags r w fun s => compareBody op z ref (src s) s :=
  .bind (State.readRef_flagFree z ref) fun a => .bind hsrc fun b =>
    .ok fun s f hf => ⟨_, rfl, (hop z.bits a b s.flags f hf).2⟩

theorem unaryBody_flags {r w : List FlagName} {op : UnaryOp} {z : Size} {dst : Ref}
    (hop : ∀ n a, OpFlags r w fun f => op n f a) : BodyFlags r w fun s => unaryBody op z dst s :=
  .bind (State.readRef_flagFree z dst) fun a =>
    .write (fun s f hf => (hop z.bits a s.flags f hf).1)
      (.ok fun s f hf => ⟨_, rfl, (hop z.bits a s.flags f hf).2⟩)

/-- Nothing staged but what the state holds. -/
theorem start_flags (r w : List FlagName) : BodyFlags r w fun s => .ok (Effect.start s) :=
  .ok_unchanged (fun _ => rfl) fun _ _ => rfl

theorem moveBody_flags {z : Size} {dst : Ref} {src : State → Except Stop (BitVec z.bits)} (hsrc : FlagFree src) :
    BodyFlags [] [] fun s => moveBody z dst (src s) s :=
  .bind hsrc fun _ => .write (fun _ _ _ => rfl) (start_flags [] [])

/-- CLC, STC, CMC: the flags staged are a function of the flags. -/
theorem flagBody_flags {r w : List FlagName} {op : Flags → Flags}
    (hop : ∀ f g, Held r f g → Follows w f g (op f) (op g)) : BodyFlags r w fun s => flagBody (op s.flags) s :=
  .ok fun s f hf => ⟨_, rfl, hop s.flags f hf⟩

theorem xchgBody_flags (z : Size) (op1 : Ref) (op2 : Reg) : BodyFlags [] [] fun s => xchgBody z op1 op2 s :=
  .bind (State.readRef_flagFree z op1) fun a => .bind (State.readRef_flagFree z (.reg op2)) fun b =>
    .andThen (post := fun s e => s.writeRef z (.reg op2) a e)
      (.write (fun _ _ _ => rfl) (start_flags [] []))
      (fun s f e g _ => s.writeRef_setFlags f g z (.reg op2) a e)
      (fun s e e' h => by rw [State.writeRef_ok h, Effect.put_flags])

theorem leaBody_flags (z : Size) (dst : Reg) (ea : EA) : BodyFlags [] [] fun s => leaBody z dst ea s :=
  .ok_unchanged (fun _ => rfl) fun _ _ => rfl

theorem movzxBody_flags (z : Size) (dst : Reg) (from_ : Size) (src : Ref) :
    BodyFlags [] [] fun s => movzxBody z dst from_ src s :=
  .bind (State.readRef_flagFree from_ src) fun _ => .ok_unchanged (fun _ => rfl) fun _ _ => rfl

theorem movsxBody_flags (z : Size) (dst : Reg) (from_ : Size) (src : Ref) :
    BodyFlags [] [] fun s => movsxBody z dst from_ src s :=
  .bind (State.readRef_flagFree from_ src) fun _ => .ok_unchanged (fun _ => rfl) fun _ _ => rfl

/-! ### Stack and control -/

theorem pushBody_flags {z : Size} {src : State → Except Stop (BitVec z.bits)} (hsrc : FlagFree src) :
    BodyFlags [] [] fun s => pushBody z (src s) s :=
  .bind hsrc fun v => .andThen (post := fun s e => s.push z v e) (start_flags [] [])
    (fun s f e g _ => s.push_setFlags f g z v e) (fun s e e' h => by rw [push_ok h]; rfl)

theorem popBody_flags (z : Size) (dst : Reg) : BodyFlags [] [] fun s => popBody z dst s :=
  .bind (rd := fun s => s.popRead z) (fun _ _ => rfl) fun _ =>
    .write (fun _ _ _ => rfl) (.ok_unchanged (fun _ => rfl) fun _ _ => rfl)

theorem Cond.holds_of_held {cc : Cond} {f g : Flags} (h : Held (conditionFlags cc) f g) :
    Cond.holds g cc = Cond.holds f cc := by
  cases cc with
  | o | no => simp [Cond.holds, show g.of = f.of from h .of (by decide)]
  | b | ae => simp [Cond.holds, show g.cf = f.cf from h .cf (by decide)]
  | e | ne => simp [Cond.holds, show g.zf = f.zf from h .zf (by decide)]
  | be | a => simp [Cond.holds, show g.cf = f.cf from h .cf (by decide), show g.zf = f.zf from h .zf (by decide)]
  | s | ns => simp [Cond.holds, show g.sf = f.sf from h .sf (by decide)]
  | p | np => simp [Cond.holds, show g.pf = f.pf from h .pf (by decide)]
  | l | ge => simp [Cond.holds, show g.sf = f.sf from h .sf (by decide), show g.of = f.of from h .of (by decide)]
  | le | g =>
    simp [Cond.holds, show g.zf = f.zf from h .zf (by decide), show g.sf = f.sf from h .sf (by decide),
      show g.of = f.of from h .of (by decide)]

theorem setccBody_flags (cc : Cond) (dst : Ref) :
    BodyFlags (conditionFlags cc) [] fun s => moveBody .s8 dst (.ok (condByte s.flags cc)) s :=
  .write (fun _ _ hf => congrArg (fun b : Bool => if b then (1 : Byte) else 0) (Cond.holds_of_held hf))
    (start_flags _ [])

theorem jccBody_flags {cc : Cond} {t : State → Word} (ht : FlagFree t) :
    BodyFlags (conditionFlags cc) [] fun s => jccBody cc (t s) s :=
  .ite (c := fun s => Cond.holds s.flags cc = true) (fun s f hf => by rw [Cond.holds_of_held hf])
    (.bind (State.checkTarget_flagFree ht) fun _ => .ok_unchanged (fun _ => rfl) fun s f => by rw [ht s f]; rfl)
    (.ok_unchanged (fun _ => rfl) fun s f => by rw [ht s f]; rfl)

theorem jmpBody_flags {t : State → Word} (ht : FlagFree t) : BodyFlags [] [] fun s => jmpBody (t s) s :=
  .bind (State.checkTarget_flagFree ht) fun _ => .ok_unchanged (fun _ => rfl) fun s f => by rw [ht s f]; rfl

theorem jmpRefBody_flags (p : Prefixes) (src : Ref) : BodyFlags [] [] fun s => jmpRefBody p src s :=
  .bind (State.readRef_flagFree p.opSize.size src) fun _ => jmpBody_flags fun _ _ => rfl

theorem callBody_flags {p : Prefixes} {len : Nat} {t : State → Word} (ht : FlagFree t) :
    BodyFlags [] [] fun s => callBody p len (t s) s :=
  .bind (State.checkTarget_flagFree ht) fun _ =>
    .andThen (post := fun s e => .ok { e with tag := .jump (t s) })
      (.andThen (post := fun s e => s.push p.opSize.size ((s.nextEip len).setWidth p.opSize.size.bits) e)
        (start_flags [] []) (fun s f e g _ => s.push_setFlags f g p.opSize.size _ e)
        (fun s e e' h => by rw [push_ok h]; rfl))
      (fun s f e g _ => by rw [ht s f]; rfl) (fun s e e' h => by cases h; rfl)

theorem callRefBody_flags (p : Prefixes) (len : Nat) (src : Ref) :
    BodyFlags [] [] fun s => callRefBody p len src s :=
  .bind (State.readRef_flagFree p.opSize.size src) fun _ => callBody_flags fun _ _ => rfl

theorem retBody_flags (p : Prefixes) (k : Nat) : BodyFlags [] [] fun s => retBody p k s :=
  .bind (rd := fun s => s.popRead p.opSize.size) (fun _ _ => rfl) fun _ =>
    .bind (State.checkTarget_flagFree fun _ _ => rfl) fun _ => .ok_unchanged (fun _ => rfl) fun _ _ => rfl

theorem hltBody_flags : BodyFlags [] [] fun s => hltBody s :=
  .ite (fun _ _ _ => Iff.rfl) (.error _) (.ok_unchanged (fun _ => rfl) fun _ _ => rfl)

/-! ### Multiply and divide -/

/-- All six flags, as MUL and ADD list them. -/
theorem mem_allFlags (x : FlagName) : x ∈ [FlagName.cf, .pf, .af, .zf, .sf, .of] := by cases x <;> decide

theorem mulBody_flags (z : Size) (src : Ref) : BodyFlags [] [.cf, .pf, .af, .zf, .sf, .of] fun s => mulBody z src s :=
  .bind (State.readRef_flagFree z src) fun _ => .ok fun s f _ => ⟨_, rfl, .same mem_allFlags s.flags f _⟩

theorem imulBody_flags (z : Size) (src : Ref) :
    BodyFlags [] [.cf, .pf, .af, .zf, .sf, .of] fun s => imulBody z src s :=
  .bind (State.readRef_flagFree z src) fun _ => .ok fun s f _ => ⟨_, rfl, .same mem_allFlags s.flags f _⟩

theorem imul2Body_flags (z : Size) (dst : Reg) (src : Ref) :
    BodyFlags [] [.cf, .pf, .af, .zf, .sf, .of] fun s => imul2Body z dst src s :=
  .bind (State.readRef_flagFree z src) fun _ => .ok fun s f _ => ⟨_, rfl, .same mem_allFlags s.flags f _⟩

theorem imul3Body_flags (z : Size) (dst : Reg) (src : Ref) (imm : BitVec z.bits) :
    BodyFlags [] [.cf, .pf, .af, .zf, .sf, .of] fun s => imul3Body z dst src imm s :=
  .bind (State.readRef_flagFree z src) fun _ => .ok fun s f _ => ⟨_, rfl, .same mem_allFlags s.flags f _⟩

theorem divBody_flags (z : Size) (src : Ref) : BodyFlags [] [] fun s => divBody z src s :=
  .bind (State.readRef_flagFree z src) fun _ =>
    .ite (fun _ _ _ => Iff.rfl) (.error _)
      (.ite (fun _ _ _ => Iff.rfl) (.error _) (.ok_unchanged (fun _ => rfl) fun _ _ => rfl))

theorem idivBody_flags (z : Size) (src : Ref) : BodyFlags [] [] fun s => idivBody z src s :=
  .bind (State.readRef_flagFree z src) fun _ =>
    .ite (fun _ _ _ => Iff.rfl) (.error _)
      (.ite (fun _ _ _ => Iff.rfl) (.error _) (.ok_unchanged (fun _ => rfl) fun _ _ => rfl))

theorem cbwBody_flags (z : OpSize) : BodyFlags [] [] fun s => cbwBody z s := by
  cases z <;> exact .ok_unchanged (fun _ => rfl) fun _ _ => rfl

theorem cwdBody_flags (z : OpSize) : BodyFlags [] [] fun s => cwdBody z s := by
  cases z <;> exact .ok_unchanged (fun _ => rfl) fun _ _ => rfl

/-! ### The operations of the ALU -/

theorem aluAdd_flags (n : Nat) (a b : BitVec n) :
    OpFlags [] [.cf, .pf, .af, .zf, .sf, .of] fun f => aluAdd n f a b :=
  fun f g _ => ⟨rfl, .same mem_allFlags f g _⟩

theorem aluSub_flags (n : Nat) (a b : BitVec n) :
    OpFlags [] [.cf, .pf, .af, .zf, .sf, .of] fun f => aluSub n f a b :=
  fun f g _ => ⟨rfl, .same mem_allFlags f g _⟩

/-- ADC reads CF alone (R44, R202). -/
theorem aluAdc_flags (n : Nat) (a b : BitVec n) :
    OpFlags [.cf] [.cf, .pf, .af, .zf, .sf, .of] fun f => aluAdc n f a b := by
  intro f g h
  have hcf : g.cf = f.cf := h .cf (by decide)
  simp only [aluAdc, hcf]
  exact ⟨trivial, .same mem_allFlags f g _⟩

/-- SBB reads CF alone (R44, R204). -/
theorem aluSbb_flags (n : Nat) (a b : BitVec n) :
    OpFlags [.cf] [.cf, .pf, .af, .zf, .sf, .of] fun f => aluSbb n f a b := by
  intro f g h
  have hcf : g.cf = f.cf := h .cf (by decide)
  simp only [aluSbb, hcf]
  exact ⟨trivial, .same mem_allFlags f g _⟩

/-- AND, OR, XOR, TEST leave AF (R173). -/
theorem logicFlags_follows {n : Nat} (r : BitVec n) (f g : Flags) :
    Follows [.cf, .pf, .zf, .sf, .of] f g (logicFlags r f) (logicFlags r g)
  | .af => .inl ⟨rfl, rfl⟩
  | .cf | .pf | .zf | .sf | .of => .inr ⟨by decide, rfl⟩

theorem aluAnd_flags (n : Nat) (a b : BitVec n) : OpFlags [] [.cf, .pf, .zf, .sf, .of] fun f => aluAnd n f a b :=
  fun f g _ => ⟨rfl, logicFlags_follows _ f g⟩

theorem aluOr_flags (n : Nat) (a b : BitVec n) : OpFlags [] [.cf, .pf, .zf, .sf, .of] fun f => aluOr n f a b :=
  fun f g _ => ⟨rfl, logicFlags_follows _ f g⟩

theorem aluXor_flags (n : Nat) (a b : BitVec n) : OpFlags [] [.cf, .pf, .zf, .sf, .of] fun f => aluXor n f a b :=
  fun f g _ => ⟨rfl, logicFlags_follows _ f g⟩

/-- All flags but CF are set alike, and CF is put back (R206, R207). -/
theorem keepCarry_follows (f g f' : Flags) :
    Follows [.pf, .af, .zf, .sf, .of] f g { f' with cf := f.cf } { f' with cf := g.cf }
  | .cf => .inl ⟨rfl, rfl⟩
  | .pf | .af | .zf | .sf | .of => .inr ⟨by decide, rfl⟩

theorem aluInc_flags (n : Nat) (a : BitVec n) : OpFlags [] [.pf, .af, .zf, .sf, .of] fun f => aluInc n f a :=
  fun f g _ => ⟨rfl, keepCarry_follows f g (addFlags a (BitVec.ofNat n 1) false f)⟩

theorem aluDec_flags (n : Nat) (a : BitVec n) : OpFlags [] [.pf, .af, .zf, .sf, .of] fun f => aluDec n f a :=
  fun f g _ => ⟨rfl, keepCarry_follows f g (subFlags a (BitVec.ofNat n 1) false f)⟩

theorem aluNeg_flags (n : Nat) (a : BitVec n) :
    OpFlags [] [.cf, .pf, .af, .zf, .sf, .of] fun f => aluNeg n f a :=
  fun f g _ => ⟨rfl, .same mem_allFlags f g _⟩

theorem aluNot_flags (n : Nat) (a : BitVec n) : OpFlags [] [] fun f => aluNot n f a :=
  fun f g _ => ⟨rfl, .unchanged [] f g⟩

/-- CLC, STC, CMC: CF alone is set, to the same value (R360 to R362). -/
theorem setCarry_follows (f g : Flags) {a b : Bool} (h : b = a) :
    Follows [.cf] f g { f with cf := a } { g with cf := b }
  | .cf => .inr ⟨by decide, h⟩
  | .pf | .af | .zf | .sf | .of => .inl ⟨rfl, rfl⟩

/-- CMC reads CF alone (R44, R362). -/
theorem complementCarry_follows {f g : Flags} (h : Held [.cf] f g) :
    Follows [.cf] f g { f with cf := !f.cf } { g with cf := !g.cf } :=
  setCarry_follows f g (congrArg (!·) (h .cf (by decide)))

/-! ### Shifts and rotates -/

/-- Two answers of a shift or rotate that differ in their flags alone, as `Follows` allows. -/
def ShiftFollows (w : List FlagName) (f g : Flags) {n : Nat} (x y : Option (Shifted n)) : Prop :=
  match x with
  | none => y = none
  | some o => ∃ g', y = some { o with flags := g' } ∧ Follows w f g o.flags g'

/-- A shift or rotate reads no flag but those of `r` and sets no flag but those of `w`; whether it writes, its value
and its draws do not hang on the other flags. -/
def ShiftFlags (r w : List FlagName) (op : ShiftOp) : Prop :=
  ∀ (q : Params) (n d : Nat) (a : BitVec n) (c : Nat) (f g : Flags), Held r f g →
    ShiftFollows w f g (op q n f d a c) (op q n g d a c)

/-- Every shift and rotate changes nothing at one count (R250), and else sets its flags. -/
theorem ShiftFollows.guarded {w : List FlagName} {f g f' g' : Flags} {p : Prop} [Decidable p] {n d : Nat}
    {v : BitVec n} (h : Follows w f g f' g') :
    ShiftFollows w f g (if p then none else some ⟨v, f', d⟩) (if p then none else some ⟨v, g', d⟩) := by
  by_cases hp : p
  · simp only [if_pos hp, ShiftFollows]
  · simp only [if_neg hp]
    exact ⟨g', rfl, h⟩

theorem shiftBody_flags {r w : List FlagName} {op : ShiftOp} {z : Size} {dst : Ref} {c : State → Nat}
    (hop : ShiftFlags r w op) (hc : FlagFree c) : BodyFlags r w fun s => shiftBody op z dst (c s) s :=
  .bind (State.readRef_flagFree z dst) fun a => by
    intro s f hf
    have hshift := hop s.params z.bits s.draws a (c s) s.flags f hf
    simp only [hc s f]
    cases hs : op s.params z.bits s.flags s.draws a (c s) with
    | none =>
      simp only [hs, ShiftFollows] at hshift
      simp only [hshift]
      exact ⟨f, rfl, .unchanged w s.flags f⟩
    | some o =>
      simp only [hs, ShiftFollows] at hshift
      obtain ⟨g', hrun, hfol⟩ := hshift
      simp only [hrun]
      have hw := s.writeRef_setFlags f g' z dst o.value { Effect.start s with flags := o.flags, draws := o.draws }
      cases hput : s.writeRef z dst o.value { Effect.start s with flags := o.flags, draws := o.draws } with
      | error x => exact hw.trans (by rw [hput]; rfl)
      | ok e =>
        refine ⟨g', hw.trans (by rw [hput]; rfl), ?_⟩
        rwa [State.writeRef_ok hput, Effect.put_flags]

/-- OF is set alike when it is set, and else left (R251 to R257; 90_conflicts.md C4). -/
theorem ofIfOne_follows (m : Nat) (v old old' : Bool) :
    (ofIfOne m v old = old ∧ ofIfOne m v old' = old') ∨ ofIfOne m v old' = ofIfOne m v old := by
  unfold ofIfOne
  split
  · exact .inr rfl
  · exact .inl ⟨rfl, rfl⟩

/-- The flags of the rotates: CF set, OF set or left (R251 to R254). -/
theorem rotateFlags_follow (f g : Flags) (m : Nat) (cf v : Bool) :
    Follows [.cf, .of] f g { f with cf := cf, of := ofIfOne m v f.of } { g with cf := cf, of := ofIfOne m v g.of }
  | .cf => .inr ⟨by decide, rfl⟩
  | .of => (ofIfOne_follows m v f.of g.of).imp_right fun h => ⟨by decide, h⟩
  | .pf | .af | .zf | .sf => .inl ⟨rfl, rfl⟩

/-- The flags of the shifts: AF left, OF set or left, the others set (R255 to R257). -/
theorem shiftFlags_follow {n : Nat} (r : BitVec n) (f g : Flags) (m : Nat) (cf v : Bool) :
    Follows [.cf, .pf, .zf, .sf, .of] f g (szp r { f with cf := cf, of := ofIfOne m v f.of })
      (szp r { g with cf := cf, of := ofIfOne m v g.of })
  | .af => .inl ⟨rfl, rfl⟩
  | .of => (ofIfOne_follows m v f.of g.of).imp_right fun h => ⟨by decide, h⟩
  | .cf | .pf | .zf | .sf => .inr ⟨by decide, rfl⟩

theorem rol_flags : ShiftFlags [] [.cf, .of] rol :=
  fun _ _ _ _ _ f g _ => .guarded (rotateFlags_follow f g _ _ _)

theorem ror_flags : ShiftFlags [] [.cf, .of] ror :=
  fun _ _ _ _ _ f g _ => .guarded (rotateFlags_follow f g _ _ _)

/-- RCL reads CF alone (R44, R253). -/
theorem rcl_flags : ShiftFlags [.cf] [.cf, .of] rcl := by
  intro q n d a c f g h
  have hcf : g.cf = f.cf := h .cf (by decide)
  simp only [rcl, hcf]
  exact .guarded (rotateFlags_follow f g _ _ _)

/-- RCR reads CF alone (R44, R254). -/
theorem rcr_flags : ShiftFlags [.cf] [.cf, .of] rcr := by
  intro q n d a c f g h
  have hcf : g.cf = f.cf := h .cf (by decide)
  simp only [rcr, hcf]
  exact .guarded (rotateFlags_follow f g _ _ _)

theorem shl_flags : ShiftFlags [] [.cf, .pf, .zf, .sf, .of] shl :=
  fun _ _ _ _ _ f g _ => .guarded (shiftFlags_follow _ f g _ _ _)

theorem shr_flags : ShiftFlags [] [.cf, .pf, .zf, .sf, .of] shr :=
  fun _ _ _ _ _ f g _ => .guarded (shiftFlags_follow _ f g _ _ _)

theorem sar_flags : ShiftFlags [] [.cf, .pf, .zf, .sf, .of] sar :=
  fun _ _ _ _ _ f g _ => .guarded (shiftFlags_follow _ f g _ _ _)

/-! ### Every instruction -/

/-- Each instruction reads no flag but those of `flagsRead` and writes no flag but those of `flagsWritten`. -/
theorem exec_flags (i : Instr) : UnitFlags (flagsRead i) (flagsWritten i) (exec i) := by
  unfold exec
  cases i with
  | addRm8R8 | addRmvRv | addR8Rm8 | addRvRmv | addAlImm8 | addEaxImmz | addRm8Imm8 | addRmvImmz | addRmvImm8 =>
    exact runUnit_flags (aluBody_flags aluAdd_flags fun _ _ => rfl)
  | adcRm8R8 | adcRmvRv | adcR8Rm8 | adcRvRmv | adcAlImm8 | adcEaxImmz | adcRm8Imm8 | adcRmvImmz | adcRmvImm8 =>
    exact runUnit_flags (aluBody_flags aluAdc_flags fun _ _ => rfl)
  | subRm8R8 | subRmvRv | subR8Rm8 | subRvRmv | subAlImm8 | subEaxImmz | subRm8Imm8 | subRmvImmz | subRmvImm8 =>
    exact runUnit_flags (aluBody_flags aluSub_flags fun _ _ => rfl)
  | sbbRm8R8 | sbbRmvRv | sbbR8Rm8 | sbbRvRmv | sbbAlImm8 | sbbEaxImmz | sbbRm8Imm8 | sbbRmvImmz | sbbRmvImm8 =>
    exact runUnit_flags (aluBody_flags aluSbb_flags fun _ _ => rfl)
  | cmpRm8R8 | cmpRmvRv | cmpR8Rm8 | cmpRvRmv | cmpAlImm8 | cmpEaxImmz | cmpRm8Imm8 | cmpRmvImmz | cmpRmvImm8 =>
    exact runUnit_flags (compareBody_flags aluSub_flags fun _ _ => rfl)
  | incRv | incRm8 | incRmv => exact runUnit_flags (unaryBody_flags aluInc_flags)
  | decRv | decRm8 | decRmv => exact runUnit_flags (unaryBody_flags aluDec_flags)
  | negRm8 | negRmv => exact runUnit_flags (unaryBody_flags aluNeg_flags)
  | andRm8R8 | andRmvRv | andR8Rm8 | andRvRmv | andAlImm8 | andEaxImmz | andRm8Imm8 | andRmvImmz | andRmvImm8 =>
    exact runUnit_flags (aluBody_flags aluAnd_flags fun _ _ => rfl)
  | orRm8R8 | orRmvRv | orR8Rm8 | orRvRmv | orAlImm8 | orEaxImmz | orRm8Imm8 | orRmvImmz | orRmvImm8 =>
    exact runUnit_flags (aluBody_flags aluOr_flags fun _ _ => rfl)
  | xorRm8R8 | xorRmvRv | xorR8Rm8 | xorRvRmv | xorAlImm8 | xorEaxImmz | xorRm8Imm8 | xorRmvImmz | xorRmvImm8 =>
    exact runUnit_flags (aluBody_flags aluXor_flags fun _ _ => rfl)
  | testRm8R8 | testRmvRv | testAlImm8 | testEaxImmz | testRm8Imm8 | testRmvImmz =>
    exact runUnit_flags (compareBody_flags aluAnd_flags fun _ _ => rfl)
  | notRm8 | notRmv => exact runUnit_flags (unaryBody_flags aluNot_flags)
  | rolRm8Imm8 | rolRmvImm8 | rolRm8One | rolRmvOne | rolRm8Cl | rolRmvCl =>
    exact runUnit_flags (shiftBody_flags rol_flags fun _ _ => rfl)
  | rorRm8Imm8 | rorRmvImm8 | rorRm8One | rorRmvOne | rorRm8Cl | rorRmvCl =>
    exact runUnit_flags (shiftBody_flags ror_flags fun _ _ => rfl)
  | rclRm8Imm8 | rclRmvImm8 | rclRm8One | rclRmvOne | rclRm8Cl | rclRmvCl =>
    exact runUnit_flags (shiftBody_flags rcl_flags fun _ _ => rfl)
  | rcrRm8Imm8 | rcrRmvImm8 | rcrRm8One | rcrRmvOne | rcrRm8Cl | rcrRmvCl =>
    exact runUnit_flags (shiftBody_flags rcr_flags fun _ _ => rfl)
  | shlRm8Imm8 | shlRmvImm8 | shlRm8One | shlRmvOne | shlRm8Cl | shlRmvCl =>
    exact runUnit_flags (shiftBody_flags shl_flags fun _ _ => rfl)
  | shrRm8Imm8 | shrRmvImm8 | shrRm8One | shrRmvOne | shrRm8Cl | shrRmvCl =>
    exact runUnit_flags (shiftBody_flags shr_flags fun _ _ => rfl)
  | sarRm8Imm8 | sarRmvImm8 | sarRm8One | sarRmvOne | sarRm8Cl | sarRmvCl =>
    exact runUnit_flags (shiftBody_flags sar_flags fun _ _ => rfl)
  | mulRm8 | mulRmv => exact runUnit_flags (mulBody_flags _ _)
  | imulRm8 | imulRmv => exact runUnit_flags (imulBody_flags _ _)
  | imulRvRmv => exact runUnit_flags (imul2Body_flags _ _ _)
  | imulRvRmvImmz | imulRvRmvImm8 => exact runUnit_flags (imul3Body_flags _ _ _ _)
  | divRm8 | divRmv => exact runUnit_flags (divBody_flags _ _)
  | idivRm8 | idivRmv => exact runUnit_flags (idivBody_flags _ _)
  | cbwCwde => exact runUnit_flags (cbwBody_flags _)
  | cwdCdq => exact runUnit_flags (cwdBody_flags _)
  | movRm8R8 | movRmvRv | movR8Rm8 | movRvRmv | movAlMoffs8 | movEaxMoffsv | movMoffs8Al | movMoffsvEax
  | movR8Imm8 | movRvImmz | movRm8Imm8 | movRmvImmz => exact runUnit_flags (moveBody_flags fun _ _ => rfl)
  | setccRm8 => exact runUnit_flags (setccBody_flags _ _)
  | leaRvM => exact runUnit_flags (leaBody_flags _ _ _)
  | movzxRvRm8 | movzxRvRm16 => exact runUnit_flags (movzxBody_flags _ _ _ _)
  | movsxRvRm8 | movsxRvRm16 => exact runUnit_flags (movsxBody_flags _ _ _ _)
  | xchgRm8R8 | xchgRmvRv | xchgEaxEcx | xchgEaxEdx | xchgEaxEbx | xchgEaxEsp | xchgEaxEbp | xchgEaxEsi
  | xchgEaxEdi => exact runUnit_flags (xchgBody_flags _ _ _)
  | pushRv | pushImmz | pushImm8 | pushRmv => exact runUnit_flags (pushBody_flags fun _ _ => rfl)
  | popRv => exact runUnit_flags (popBody_flags _ _)
  | jccRel8 | jccRelz => exact runUnit_flags (jccBody_flags fun _ _ => rfl)
  | jmpRelz | jmpRel8 => exact runUnit_flags (jmpBody_flags fun _ _ => rfl)
  | jmpRmv => exact runUnit_flags (jmpRefBody_flags _ _)
  | callRelz => exact runUnit_flags (callBody_flags fun _ _ => rfl)
  | callRmv => exact runUnit_flags (callRefBody_flags _ _ _)
  | retImm16 | ret => exact runUnit_flags (retBody_flags _ _)
  | hlt => exact runUnit_flags hltBody_flags
  | clc => exact runUnit_flags (flagBody_flags fun f g _ => setCarry_follows f g rfl)
  | stc => exact runUnit_flags (flagBody_flags fun f g _ => setCarry_follows f g rfl)
  | cmc => exact runUnit_flags (flagBody_flags fun _ _ => complementCarry_follows)
  | nop => exact runUnit_flags (start_flags [] [])
  | ud2 => exact fun s f _ => ⟨f, rfl, .unchanged [] s.flags f⟩

/-- Settles O29: with the same flags in both runs, a flag that is not written is left as it was. -/
theorem otherFlagsUnchanged : Obligations.OtherFlagsUnchanged := by
  intro i s t x ht hx
  have hrun := exec_flags i s s.flags fun _ _ => rfl
  simp only [ht] at hrun
  obtain ⟨_, -, hfol⟩ := hrun
  obtain ⟨hkeep, -⟩ | ⟨hmem, -⟩ := hfol x
  · exact hkeep
  · exact absurd hmem hx

/-- Settles O33: a flag that the second run leaves apart is one that both runs left as it was. -/
theorem onlyTheNamedFlagsAreRead : Obligations.OnlyTheNamedFlagsAreRead := by
  intro i s f hf
  have hrun := exec_flags i s f hf
  cases ht : exec i s with
  | next t =>
    simp only [ht] at hrun
    obtain ⟨f', hnext, hfol⟩ := hrun
    exact ⟨f', hnext, fun x => (hfol x).symm.imp And.right And.symm⟩
  | refused x => simpa only [ht] using hrun
  | fault x => simpa only [ht] using hrun

end Sys2Proof.Machine
end

section
/-! PROOFS. Memory: a run of bytes written and read byte for byte, and the value they compose, the lowest address the
least significant (20_memory.md R72, R73, R76, R77, R80). Settles O12, O14. -/

namespace Sys2Proof.Machine

open Sys2Proof.Claims

theorem Size.bits_eq_bytes (z : Size) : z.bits = 8 * z.bytes := by
  cases z <;> rfl

/-- The address k + 1 bytes on, wrapping, is k bytes on from the next address (R73). -/
theorem add_ofNat_succ (a : Word) (k : Nat) : a + BitVec.ofNat 32 (k + 1) = a + 1 + BitVec.ofNat 32 k := by
  rw [Nat.add_comm k 1, BitVec.ofNat_add, BitVec.add_assoc]
  rfl

/-! ### The bytes of a value and the value of bytes (R76, R77) -/

/-- Byte k stored of a value is v[8k+7:8k]. -/
theorem leBytes_toNat_getElem {w n k : Nat} (v : BitVec w) (h : k < (leBytes n v.toNat).length) :
    (leBytes n v.toNat)[k] = v.extractLsb' (8 * k) 8 := by
  rw [leBytes_getElem (by simpa using h), BitVec.extractLsb', Nat.shiftRight_eq_div_pow, Nat.pow_mul]

/-- Bit 8k+j of the value of bytes is bit j of byte k. -/
theorem leValue_testBit {l : List Byte} {k j : Nat} (hk : k < l.length) (hj : j < 8) :
    (leValue l).testBit (8 * k + j) = l[k].getLsbD j := by
  induction l generalizing k with
  | nil => simp at hk
  | cons b l ih =>
    have hcons : leValue (b :: l) = 2 ^ 8 * leValue l + b.toNat := Nat.add_comm _ _
    rw [hcons, Nat.testBit_two_pow_mul_add _ b.isLt]
    cases k with
    | zero => simp [hj, BitVec.getLsbD]
    | succ k =>
      have hbit : 8 * (k + 1) + j - 8 = 8 * k + j := by omega
      rw [if_neg (by omega), hbit]
      exact ih (by simpa using hk)

/-- Byte k of a run read is the byte at address + k, wrapping (R73). -/
theorem Memory.readBytes_getElem (m : Memory) (a : Word) {n k : Nat} (h : k < (Memory.readBytes m a n).length) :
    (Memory.readBytes m a n)[k] = Memory.read m (a + BitVec.ofNat 32 k).toNat := by
  induction n generalizing a k with
  | zero => simp at h
  | succ n ih =>
    cases k with
    | zero => simp [Memory.readBytes]
    | succ k =>
      rw [add_ofNat_succ]
      exact ih (a + 1) (by simpa using h)

/-! ### The claims -/

/-- Settles O12: a store and a read taken byte by byte, and the bytes of a value bit by bit. -/
theorem memoryIsLittleEndian : Obligations.MemoryIsLittleEndian := by
  intro m a z v hm
  have hlen : (leBytes z.bytes v.toNat).length = z.bytes := leBytes_length _ _
  have hbound : z.bytes ≤ 2 ^ 32 := by cases z <;> decide
  refine ⟨fun k hk => ?_, fun x hx => ?_, fun k j hk hj => ?_⟩
  · rw [← hlen] at hk hbound
    rw [Memory.read_writeBytes_same a _ hm hbound hk, leBytes_toNat_getElem]
  · exact Memory.read_writeBytes_other m a _ x (by rwa [hlen])
  · have hbit : 8 * k + j < z.bits := by have := Size.bits_eq_bytes z; omega
    have hread : k < (Memory.readBytes m a z.bytes).length := by simpa using hk
    rw [BitVec.getLsbD_ofNat, leValue_testBit hread hj, Memory.readBytes_getElem]
    simp [hbit]

/-- Settles O14: a run of at most 2^32 bytes does not overwrite itself, and the write is of memory alone. -/
theorem hostWritesMemoryBytewise : Obligations.HostWritesMemoryBytewise := by
  intro s a bytes hm hlen
  refine ⟨fun k b hb => ?_, fun x hx => ?_, Memory.writeBytes_wf a bytes hm, rfl⟩
  · obtain ⟨hk, rfl⟩ := List.getElem?_eq_some_iff.mp hb
    exact Memory.read_writeBytes_same a bytes hm hlen hk
  · exact Memory.read_writeBytes_other s.mem a bytes x hx

end Sys2Proof.Machine
end

section
/-! PROOFS. Encoding, first part: the address forms of the ModRM resolver (30_encoding.md R111 to R125). A memory form
that the resolver answers is well-formed, and what it read are that form's own fields and bytes (`readRm_mem`); so each
claim is one about a form and its encoding. Settles O8, O9. -/

namespace Sys2Proof.Machine

open Sys2Proof.Claims

/-! ### What the resolver answers (R112) -/

theorem readRm_reg {z : OpSize} {b : Byte} {c c' : List Cell} {rm : Rm} (h : readRm z b c = .ok (rm, c'))
    (h3 : modField b = 3) : rm = .reg (Reg.ofIndex (rmField b)) ∧ c' = c := by
  rw [readRm, if_pos h3, Except.ok.injEq, Prod.mk.injEq] at h
  exact ⟨h.1.symm, h.2.symm⟩

/-- With another mod than 3 the answer is a well-formed memory form, the ModRM byte has its fields, and the cells taken
are its bytes. -/
theorem readRm_mem {z : OpSize} {b : Byte} {c c' : List Cell} {rm : Rm} (h : readRm z b c = .ok (rm, c'))
    (h3 : modField b ≠ 3) :
    ∃ m : MemForm, rm = .mem m ∧ m.wf z = true ∧ modField b = m.mod ∧ rmField b = m.rm ∧ c = cells m.tail ++ c' := by
  obtain ⟨_, ⟨hwf, hb, rfl⟩, rfl, -⟩ := readRm_gives z b c rm c' h
  have hmod : modField b = rm.mod := (congrArg modField hb).trans (modField_packByte ..)
  have hrm : rmField b = rm.rm := (congrArg rmField hb).trans (rmField_packByte ..)
  cases rm with
  | reg r => exact absurd hmod h3
  | mem m => exact ⟨m, rfl, hwf, hmod, hrm, rfl⟩

/-! ### Displacements (R116, R121) -/

theorem reads16_bytes (d : Disp16) (c : List Cell) :
    reads16 d.mod.toNat (cells d.bytes ++ c) c ((Disp16.value d).setWidth 32) := by
  cases d with
  | none => exact ⟨rfl, rfl⟩
  | d8 v => exact ⟨v, rfl, rfl⟩
  | d16 v => exact ⟨_, _, rfl, congrArg (BitVec.setWidth 32) (append_bytes2 v).symm⟩

/-- A word is its four bytes, the highest first. -/
theorem append_four_bytes (v : Word) :
    (v.extractLsb' 16 16).extractLsb' 8 8 ++ (v.extractLsb' 16 16).extractLsb' 0 8 ++
      (v.extractLsb' 0 16).extractLsb' 8 8 ++ (v.extractLsb' 0 16).extractLsb' 0 8 = v := by
  rw [append_bytes2, BitVec.append_assoc, append_bytes2, BitVec.cast_eq, append_bytes4]

theorem reads32_bytes4 (v : Word) (c : List Cell) : reads32 4 (cells (bytes4 v) ++ c) c v :=
  ⟨_, _, _, _, rfl, (append_four_bytes v).symm⟩

theorem reads32_bytes (d : Disp32) (c : List Cell) :
    reads32 d.mod.toNat (cells d.bytes ++ c) c (Disp32.value d) := by
  cases d with
  | none => exact ⟨rfl, rfl⟩
  | d8 v => exact ⟨v, rfl, rfl⟩
  | d32 v => exact reads32_bytes4 v c

/-! ### Base, index and default segment (R114, R117, R123, R125) -/

theorem Reg.eq_ofIndex {r : Reg} {k : BitVec 3} (h : r.index = k) : r = Reg.ofIndex k := by
  rw [← h, Reg.ofIndex_index]

theorem base16_index (b : Base16) : base16 b.index = Base16.base b := by
  cases b <;> rfl

theorem index16_index (b : Base16) : index16 b.index = (Base16.indexReg b).map fun r => (r, .x1) := by
  cases b <;> rfl

/-- The field values 4 and 5 of a base are ESP and EBP. -/
theorem MemForm.defaultSeg_of_base {m : MemForm} {r : Reg} (h : (MemForm.ea m).base = some r) :
    MemForm.defaultSeg m = if r.index = 4 ∨ r.index = 5 then .ss else .ds := by
  rw [MemForm.defaultSeg, h]
  cases r <;> rfl

theorem MemForm.defaultSeg_based16 (b : Base16) (d : Disp16) :
    MemForm.defaultSeg (.based16 b d) = if Base16.base b = .ebp then .ss else .ds := by
  cases b <;> rfl

theorem sibIndex_of_four {ix : Reg} (sc : Scale) (h : ix.index = 4) : sibIndex ix sc = none :=
  if_pos (Reg.eq_ofIndex h)

theorem sibIndex_of_ne_four {ix : Reg} (sc : Scale) (h : ix.index ≠ 4) : sibIndex ix sc = some (ix, sc) :=
  if_neg (by rintro rfl; exact h rfl)

theorem Scale.factor_eq_two_pow (sc : Scale) : Scale.factor sc = 2 ^ sc.ss.toNat := by
  cases sc <;> rfl

/-! ### A based form is no direct form's encoding (R116, R121, R124) -/

theorem Disp16.eq_none_of_mod {d : Disp16} (h : d.mod = 0) : d = .none := by
  cases d with
  | none => rfl
  | d8 v => exact absurd h (by simp [Disp16.mod])
  | d16 v => exact absurd h (by simp [Disp16.mod])

theorem Disp32.eq_none_of_mod {d : Disp32} (h : d.mod = 0) : d = .none := by
  cases d with
  | none => rfl
  | d8 v => exact absurd h (by simp [Disp32.mod])
  | d32 v => exact absurd h (by simp [Disp32.mod])

theorem based16_not_direct {z : OpSize} {b : Base16} {d : Disp16} (h : (MemForm.based16 b d).wf z = true) :
    ¬(d.mod = 0 ∧ b.index = 6) := by
  rintro ⟨hd, hb⟩
  rw [Disp16.eq_none_of_mod hd, ← Base16.ofIndex_index b, hb] at h
  cases z <;> cases h

theorem based32_not_direct {z : OpSize} {r : Reg} {d : Disp32} (h : (MemForm.based32 r d).wf z = true) :
    ¬(d.mod = 0 ∧ r.index = 5) := by
  rintro ⟨hd, hr⟩
  rw [Disp32.eq_none_of_mod hd, Reg.eq_ofIndex hr] at h
  cases z <;> cases h

theorem sib_not_direct {z : OpSize} {sc : Scale} {ix r : Reg} {d : Disp32} (h : (MemForm.sib sc ix r d).wf z = true) :
    ¬(d.mod = 0 ∧ r.index = 5) := by
  rintro ⟨hd, hr⟩
  rw [Disp32.eq_none_of_mod hd, Reg.eq_ofIndex hr] at h
  cases z <;> cases h

/-- ESP as a base is encoded by a SIB byte (R122). -/
theorem based32_index_ne_four {z : OpSize} {r : Reg} {d : Disp32} (h : (MemForm.based32 r d).wf z = true) :
    r.index ≠ 4 := by
  intro hr
  rw [Reg.eq_ofIndex hr] at h
  cases z <;> cases h

/-! ### The claims -/

/-- Settles O8: each 16-bit form is one row of the table. -/
theorem addressForms16 : Obligations.AddressForms16 := by
  intro b c c' rm h
  refine ⟨readRm_reg h, fun h3 => ?_⟩
  obtain ⟨m, rfl, hwf, hmod, hrm, rfl⟩ := readRm_mem h h3
  rw [hmod, hrm]
  cases m with
  | based16 base d =>
    have hne := based16_not_direct hwf
    refine ⟨_, _, rfl, rfl, rfl, fun _ => rfl, fun h0 h6 => absurd ⟨h0, h6⟩ hne, fun _ => ?_⟩
    simp only [MemForm.rm, base16_index, index16_index]
    exact ⟨rfl, rfl, MemForm.defaultSeg_based16 base d, reads16_bytes d c'⟩
  | direct16 d =>
    refine ⟨_, _, rfl, rfl, rfl, fun _ => rfl, fun _ _ => ⟨rfl, rfl, rfl, ?_⟩, fun hne => absurd ⟨rfl, rfl⟩ hne⟩
    exact reads16_bytes (.d16 d) c'
  | based32 | direct32 | sib | sibDirect => cases hwf

/-- Settles O9: each 32-bit form is one of the claim's cases, with or without a SIB byte. -/
theorem addressForms32 : Obligations.AddressForms32 := by
  intro b c c' rm h
  refine ⟨readRm_reg h, fun h3 => ?_⟩
  obtain ⟨m, rfl, hwf, hmod, hrm, rfl⟩ := readRm_mem h h3
  rw [hmod, hrm]
  cases m with
  | based32 r d =>
    have h4 : r.index ≠ 4 := based32_index_ne_four hwf
    have hne := based32_not_direct hwf
    refine ⟨_, _, rfl, rfl, rfl, fun _ => rfl, fun _ => ⟨rfl, fun h0 h5 => absurd ⟨h0, h5⟩ hne, fun _ => ?_⟩,
      fun e => absurd e h4⟩
    exact ⟨congrArg some (Reg.ofIndex_index r).symm,
      (MemForm.defaultSeg_of_base rfl).trans (if_congr (or_iff_right h4) rfl rfl), reads32_bytes d c'⟩
  | direct32 d =>
    exact ⟨_, _, rfl, rfl, rfl, fun _ => rfl,
      fun _ => ⟨rfl, fun _ _ => ⟨rfl, rfl, reads32_bytes4 d c'⟩, fun hne => absurd ⟨rfl, rfl⟩ hne⟩,
      fun e => absurd e (by simp [MemForm.rm])⟩
  | sib sc ix r d =>
    have hne := sib_not_direct hwf
    refine ⟨_, _, rfl, rfl, rfl, fun _ => rfl, fun h4 => absurd rfl h4, fun _ => ⟨_, _, rfl, ?_⟩⟩
    simp only [regField_packByte, rmField_packByte, modField_packByte, Reg.ofIndex_index]
    exact ⟨sibIndex_of_four sc, fun h4 => ⟨sc, sibIndex_of_ne_four sc h4, Scale.factor_eq_two_pow sc⟩,
      fun h0 h5 => absurd ⟨h0, h5⟩ hne, fun _ => ⟨rfl, MemForm.defaultSeg_of_base rfl, reads32_bytes d c'⟩⟩
  | sibDirect sc ix d =>
    refine ⟨_, _, rfl, rfl, rfl, fun _ => rfl, fun h4 => absurd rfl h4, fun _ => ⟨_, _, rfl, ?_⟩⟩
    simp only [regField_packByte, rmField_packByte, modField_packByte, Reg.ofIndex_index]
    exact ⟨sibIndex_of_four sc, fun h4 => ⟨sc, sibIndex_of_ne_four sc h4, Scale.factor_eq_two_pow sc⟩,
      fun _ _ => ⟨rfl, rfl, reads32_bytes4 d c'⟩, fun hne => absurd ⟨rfl, trivial⟩ hne⟩
  | based16 | direct16 => cases hwf

end Sys2Proof.Machine
end

section
/-! PROOFS. Encoding, second part: which encodings are the decode fault Reserved (30_encoding.md R139, R142). Every
reader but five rows of the one-byte map is `NotReserved` on cells that stop for another reason; each of the five is
said exactly, and UD2 is the one instruction that `asUnit` makes Reserved. Settles O4. -/

namespace Sys2Proof.Machine

open Sys2Proof.Claims

/-! ### Answers other than Reserved -/

/-- None of the cells stops with Reserved. -/
def NoReservedStop (c : List Cell) : Prop := Cell.stop (.fault .reserved) ∉ c

/-- A reader's answer is not Reserved, and neither is a stop in the cells it leaves. -/
def NotReserved {α : Type} : Except DecodeStop (α × List Cell) → Prop
  | .ok x => NoReservedStop x.2
  | .error e => e ≠ .fault .reserved

@[simp] theorem noReservedStop_byte (b : Byte) (c : List Cell) :
    NoReservedStop (.byte b :: c) ↔ NoReservedStop c := by
  simp [NoReservedStop]

theorem NotReserved.ne {α : Type} {r : Except DecodeStop (α × List Cell)} (h : NotReserved r) :
    r ≠ .error (.fault .reserved) := by
  rintro rfl
  exact h rfl

theorem NotReserved.bind {α β : Type} {r : Except DecodeStop (α × List Cell)}
    {g : α × List Cell → Except DecodeStop (β × List Cell)} (h : NotReserved r)
    (hg : ∀ v c, NoReservedStop c → NotReserved (g (v, c))) : NotReserved (r >>= g) := by
  cases r with
  | error e => exact h
  | ok x => exact hg x.1 x.2 h

/-! ### The readers and the formats (R101, R102, R111 to R132) -/

section
variable {c : List Cell} (hc : NoReservedStop c)
include hc

theorem take1_notReserved : NotReserved (take1 c) := by
  match c with
  | [] => exact fun he => by cases he
  | .byte b :: c => exact (noReservedStop_byte b c).mp hc
  | .stop e :: c => exact fun he => hc (he ▸ List.mem_cons_self)

theorem take2_notReserved : NotReserved (take2 c) :=
  (take1_notReserved hc).bind fun _ _ hc => (take1_notReserved hc).bind fun _ _ hc => hc

theorem take4_notReserved : NotReserved (take4 c) :=
  (take2_notReserved hc).bind fun _ _ hc => (take2_notReserved hc).bind fun _ _ hc => hc

theorem takeZ_notReserved (z : OpSize) : NotReserved (takeZ z c) := by
  cases z with
  | w16 => exact (take2_notReserved hc).bind fun _ _ hc => hc
  | w32 => exact (take4_notReserved hc).bind fun _ _ hc => hc

theorem readDisp16_notReserved (md : BitVec 2) : NotReserved (readDisp16 md c) := by
  unfold readDisp16
  split
  · exact hc
  · exact (take1_notReserved hc).bind fun _ _ hc => hc
  · exact (take2_notReserved hc).bind fun _ _ hc => hc

theorem readDisp32_notReserved (md : BitVec 2) : NotReserved (readDisp32 md c) := by
  unfold readDisp32
  split
  · exact hc
  · exact (take1_notReserved hc).bind fun _ _ hc => hc
  · exact (take4_notReserved hc).bind fun _ _ hc => hc

theorem readSib_notReserved (md : BitVec 2) : NotReserved (readSib md c) := by
  refine (take1_notReserved hc).bind fun b c hc => ?_
  dsimp only
  split
  · exact (take4_notReserved hc).bind fun _ _ hc => hc
  · exact (readDisp32_notReserved hc md).bind fun _ _ hc => hc

theorem readMem_notReserved (z : OpSize) (b : Byte) : NotReserved (readMem z b c) := by
  unfold readMem
  split <;> split
  · exact (take2_notReserved hc).bind fun _ _ hc => hc
  · exact (readDisp16_notReserved hc _).bind fun _ _ hc => hc
  · exact readSib_notReserved hc _
  · split
    · exact (take4_notReserved hc).bind fun _ _ hc => hc
    · exact (readDisp32_notReserved hc _).bind fun _ _ hc => hc

theorem readRm_notReserved (z : OpSize) (b : Byte) : NotReserved (readRm z b c) := by
  unfold readRm
  split
  · exact hc
  · exact (readMem_notReserved hc z b).bind fun _ _ hc => hc

@[simp] theorem fmtRm_notReserved (p : Prefixes) (b : Byte) (k : Rm → Instr) : NotReserved (fmtRm p b k c) :=
  (readRm_notReserved hc _ b).bind fun _ _ hc => hc

@[simp] theorem fmtRmImm8_notReserved (p : Prefixes) (b : Byte) (k : Rm → BitVec 8 → Instr) :
    NotReserved (fmtRmImm8 p b k c) :=
  (readRm_notReserved hc _ b).bind fun _ _ hc => (take1_notReserved hc).bind fun _ _ hc => hc

@[simp] theorem fmtRmImmz_notReserved (p : Prefixes) (b : Byte) (k : Rm → Immz → Instr) :
    NotReserved (fmtRmImmz p b k c) :=
  (readRm_notReserved hc _ b).bind fun _ _ hc => (takeZ_notReserved hc _).bind fun _ _ hc => hc

@[simp] theorem fmtRegRm_notReserved (p : Prefixes) (k : Reg → Rm → Instr) : NotReserved (fmtRegRm p k c) :=
  (take1_notReserved hc).bind fun b _ hc => fmtRm_notReserved hc p b (k (Reg.ofIndex (regField b)))

@[simp] theorem fmtRegRmImm8_notReserved (p : Prefixes) (k : Reg → Rm → BitVec 8 → Instr) :
    NotReserved (fmtRegRmImm8 p k c) :=
  (take1_notReserved hc).bind fun b _ hc => fmtRmImm8_notReserved hc p b (k (Reg.ofIndex (regField b)))

@[simp] theorem fmtRegRmImmz_notReserved (p : Prefixes) (k : Reg → Rm → Immz → Instr) :
    NotReserved (fmtRegRmImmz p k c) :=
  (take1_notReserved hc).bind fun b _ hc => fmtRmImmz_notReserved hc p b (k (Reg.ofIndex (regField b)))

@[simp] theorem fmtSetcc_notReserved (p : Prefixes) (cc : Cond) : NotReserved (fmtSetcc p cc c) :=
  (take1_notReserved hc).bind fun b _ hc => fmtRm_notReserved hc p b (.setccRm8 p cc (regField b))

@[simp] theorem fmtImm8_notReserved (k : BitVec 8 → Instr) : NotReserved (fmtImm8 k c) :=
  (take1_notReserved hc).bind fun _ _ hc => hc

@[simp] theorem fmtImm16_notReserved (k : BitVec 16 → Instr) : NotReserved (fmtImm16 k c) :=
  (take2_notReserved hc).bind fun _ _ hc => hc

@[simp] theorem fmtImmz_notReserved (z : OpSize) (k : Immz → Instr) : NotReserved (fmtImmz z k c) :=
  (takeZ_notReserved hc z).bind fun _ _ hc => hc

@[simp] theorem fmtNone_notReserved (i : Instr) : NotReserved (fmtNone i c) := hc

end

@[simp] theorem notAdmitted_notReserved (l : List Byte) : NotReserved (notAdmitted l) := by
  simp [notAdmitted, NotReserved]

/-! ### The groups -/

section
variable {c : List Cell} (hc : NoReservedStop c) (p : Prefixes)
include hc

@[simp] theorem group80_notReserved (al : Opcode80) : NotReserved (group80 p al c) :=
  (take1_notReserved hc).bind fun _ _ hc => by dsimp only; split <;> simp [hc]

@[simp] theorem group81_notReserved : NotReserved (group81 p c) :=
  (take1_notReserved hc).bind fun _ _ hc => by dsimp only; split <;> simp [hc]

@[simp] theorem group83_notReserved : NotReserved (group83 p c) :=
  (take1_notReserved hc).bind fun _ _ hc => by dsimp only; split <;> simp [hc]

@[simp] theorem groupC0_notReserved : NotReserved (groupC0 p c) :=
  (take1_notReserved hc).bind fun _ _ hc => by dsimp only; split <;> simp [hc]

@[simp] theorem groupC1_notReserved : NotReserved (groupC1 p c) :=
  (take1_notReserved hc).bind fun _ _ hc => by dsimp only; split <;> simp [hc]

@[simp] theorem groupD0_notReserved : NotReserved (groupD0 p c) :=
  (take1_notReserved hc).bind fun _ _ hc => by dsimp only; split <;> simp [hc]

@[simp] theorem groupD1_notReserved : NotReserved (groupD1 p c) :=
  (take1_notReserved hc).bind fun _ _ hc => by dsimp only; split <;> simp [hc]

@[simp] theorem groupD2_notReserved : NotReserved (groupD2 p c) :=
  (take1_notReserved hc).bind fun _ _ hc => by dsimp only; split <;> simp [hc]

@[simp] theorem groupD3_notReserved : NotReserved (groupD3 p c) :=
  (take1_notReserved hc).bind fun _ _ hc => by dsimp only; split <;> simp [hc]

@[simp] theorem groupF6_notReserved : NotReserved (groupF6 p c) :=
  (take1_notReserved hc).bind fun _ _ hc => by dsimp only; split <;> simp [hc]

@[simp] theorem groupF7_notReserved : NotReserved (groupF7 p c) :=
  (take1_notReserved hc).bind fun _ _ hc => by dsimp only; split <;> simp [hc]

/-! ### The maps (R134, R139) -/

@[simp] theorem map0_notReserved (n : Nat) : NotReserved (map0 p n c) := by
  unfold map0
  split <;> simp [hc]

@[simp] theorem map1_notReserved (n : Nat) : NotReserved (map1 p n c) := by
  unfold map1
  split <;> simp [hc]

@[simp] theorem map2_notReserved (n : Nat) : NotReserved (map2 p n c) := by
  unfold map2
  split <;> simp [hc]

@[simp] theorem map3_notReserved (n : Nat) : NotReserved (map3 p n c) := by
  unfold map3
  split <;> simp [hc]

@[simp] theorem map4_notReserved (n : Nat) : NotReserved (map4 p n c) := by
  unfold map4
  split <;> simp [hc]

@[simp] theorem map5_notReserved (n : Nat) : NotReserved (map5 p n c) := by
  unfold map5
  split <;> simp [hc]

@[simp] theorem map6_notReserved (n : Nat) : NotReserved (map6 p n c) := by
  unfold map6
  split <;> simp [hc]

@[simp] theorem map9_notReserved (n : Nat) : NotReserved (map9 p n c) := by
  unfold map9
  split <;> simp [hc]

@[simp] theorem mapA_notReserved (n : Nat) : NotReserved (mapA p n c) := by
  unfold mapA
  split <;> simp [hc]

@[simp] theorem mapB_notReserved (n : Nat) : NotReserved (mapB p n c) := by
  unfold mapB
  split <;> simp [hc]

@[simp] theorem mapD_notReserved (n : Nat) : NotReserved (mapD p n c) := by
  unfold mapD
  split <;> simp [hc]

@[simp] theorem mapE_notReserved (n : Nat) : NotReserved (mapE p n c) := by
  unfold mapE
  split <;> simp [hc]

@[simp] theorem map7_notReserved (n : Nat) : NotReserved (map7 p n c) := fmtImm8_notReserved hc _

theorem map8_notReserved {n : Nat} (hn : n ≠ 13) : NotReserved (map8 p n c) := by
  unfold map8
  split <;> simp [hc] at hn ⊢

theorem mapC_notReserved {n : Nat} (h6 : n ≠ 6) (h7 : n ≠ 7) : NotReserved (mapC p n c) := by
  unfold mapC
  split <;> simp [hc] at h6 h7 ⊢

theorem mapF_notReserved {n : Nat} (h14 : n ≠ 14) (h15 : n ≠ 15) : NotReserved (mapF p n c) := by
  unfold mapF
  split <;> simp [hc] at h14 h15 ⊢

/-- The one-byte opcodes with a Reserved encoding (R142). -/
def reservedOpcodes : List Nat := [0x8D, 0xC6, 0xC7, 0xFE, 0xFF]

theorem mapOne_notReserved {op : Byte} (h : op.toNat ∉ reservedOpcodes) : NotReserved (mapOne p op c) := by
  simp only [reservedOpcodes, List.mem_cons, List.not_mem_nil, or_false, not_or] at h
  unfold mapOne
  split
  case h_9 => exact map8_notReserved hc p (by omega)
  case h_13 => exact mapC_notReserved hc p (by omega) (by omega)
  case h_16 => exact mapF_notReserved hc p (by omega) (by omega)
  all_goals simp [hc]

theorem mapTwo_notReserved (op : Byte) : NotReserved (mapTwo p op c) := by
  unfold mapTwo
  split
  · simp [hc]
  · simp [hc]
  · split <;> simp [hc]

end

/-! ### The rows that can be Reserved (R138, R140, R142) -/

theorem modField_toNat (b : Byte) : (modField b).toNat = b.toNat / 64 := by
  rw [modField, BitVec.extractLsb'_toNat, Nat.shiftRight_eq_div_pow]
  omega

theorem regField_toNat (b : Byte) : (regField b).toNat = b.toNat / 8 % 8 := by
  rw [regField, BitVec.extractLsb'_toNat, Nat.shiftRight_eq_div_pow]

section
variable {c : List Cell} (hc : NoReservedStop c) (p : Prefixes) (b : Byte)
include hc

theorem fmtLea_reserved_iff (k : Reg → MemForm → Instr) :
    fmtLea p k (.byte b :: c) = .error (.fault .reserved) ↔ (modField b).toNat = 3 := by
  have hmod : modField b = 3 ↔ (modField b).toNat = 3 := BitVec.toNat_inj.symm
  rw [← hmod]
  simp only [fmtLea, take1_byte, bind, Except.bind]
  split
  · next h => exact iff_of_true rfl h
  · next h =>
    refine iff_of_false (NotReserved.ne ?_) h
    exact (readMem_notReserved hc _ b).bind (g := fun x => .ok (k (Reg.ofIndex (regField b)) x.1, x.2))
      fun _ _ hc => hc

theorem groupFE_reserved_iff :
    groupFE p (.byte b :: c) = .error (.fault .reserved) ↔ 2 ≤ (regField b).toNat := by
  simp only [groupFE, take1_byte, bind, Except.bind]
  split
  · exact iff_of_false (fmtRm_notReserved hc ..).ne (by omega)
  · exact iff_of_false (fmtRm_notReserved hc ..).ne (by omega)
  · next h0 h1 => exact iff_of_true rfl ((Nat.two_le_iff _).mpr ⟨h0, h1⟩)

theorem groupFF_reserved_iff :
    groupFF p (.byte b :: c) = .error (.fault .reserved) ↔ (regField b).toNat = 7 := by
  have hlt := (regField b).isLt
  simp only [groupFF, take1_byte, bind, Except.bind]
  split
  case h_8 => exact iff_of_true rfl (by grind)
  all_goals exact iff_of_false (NotReserved.ne (by simp [hc])) (by omega)

theorem groupC6_reserved_iff :
    groupC6 p (.byte b :: c) = .error (.fault .reserved) ↔ (regField b).toNat ≠ 0 := by
  simp only [groupC6, take1_byte, bind, Except.bind]
  split
  · next h => exact iff_of_false (fmtRmImm8_notReserved hc ..).ne (by omega)
  · next h => exact iff_of_true rfl h

theorem groupC7_reserved_iff :
    groupC7 p (.byte b :: c) = .error (.fault .reserved) ↔ (regField b).toNat ≠ 0 := by
  simp only [groupC7, take1_byte, bind, Except.bind]
  split
  · next h => exact iff_of_false (fmtRmImmz_notReserved hc ..).ne (by omega)
  · next h => exact iff_of_true rfl h

theorem mapOne_reserved_iff {op : Byte} (hop : op ≠ 0x0F) :
    mapOne p op (.byte b :: c) = .error (.fault .reserved) ↔ reservedPair op b = true := by
  simp only [reservedPair, ← modField_toNat, ← regField_toNat, decide_eq_true_eq]
  by_cases h : op.toNat ∈ reservedOpcodes
  · simp only [reservedOpcodes, List.mem_cons, List.not_mem_nil, or_false] at h
    rcases h with h | h | h | h | h
    · obtain rfl : op = 0x8D := BitVec.eq_of_toNat_eq h
      exact (fmtLea_reserved_iff hc p b _).trans (by simp)
    · obtain rfl : op = 0xC6 := BitVec.eq_of_toNat_eq h
      exact (groupC6_reserved_iff hc p b).trans (by simp)
    · obtain rfl : op = 0xC7 := BitVec.eq_of_toNat_eq h
      exact (groupC7_reserved_iff hc p b).trans (by simp)
    · obtain rfl : op = 0xFE := BitVec.eq_of_toNat_eq h
      exact (groupFE_reserved_iff hc p b).trans (by simp)
    · obtain rfl : op = 0xFF := BitVec.eq_of_toNat_eq h
      exact (groupFF_reserved_iff hc p b).trans (by simp)
  · have h0F : op.toNat ≠ 0x0F := fun e => hop (BitVec.eq_of_toNat_eq e)
    refine iff_of_false (mapOne_notReserved ((noReservedStop_byte b c).mpr hc) p h).ne ?_
    simp only [reservedOpcodes, List.mem_cons, List.not_mem_nil, or_false, not_or] at h
    omega

end

/-! ### UD2 (R139, R142) -/

theorem Instr.kind_eq_reserved_iff (i : Instr) : Instr.kind i = .reserved ↔ ∃ p, i = .ud2 p := by
  cases i <;> simp [Instr.kind]

theorem asUnit_reserved_iff (r : Except DecodeStop (Instr × List Cell)) :
    asUnit (r.map Prod.fst) = .error (.fault .reserved) ↔
      r = .error (.fault .reserved) ∨ ∃ p c, r = .ok (.ud2 p, c) := by
  cases r with
  | error e => simp [Except.map, asUnit]
  | ok x =>
    obtain ⟨i, c⟩ := x
    simp only [Except.ok.injEq, Prod.mk.injEq, exists_and_left, exists_eq', and_true,
      ← Instr.kind_eq_reserved_iff, reduceCtorEq, false_or]
    cases h : Instr.kind i <;> simp [Except.map, asUnit, h]

theorem mapOne_ne_ud2 (p q : Prefixes) (op : Byte) (c c' : List Cell) : mapOne p op c ≠ .ok (.ud2 q, c') := by
  intro h
  obtain ⟨_, ⟨-, htwo, -⟩, -⟩ := fits_mapOne p op c _ c' h
  exact Bool.false_ne_true htwo.symm

theorem mapTwo_ud2_iff (p : Prefixes) (op : Byte) (c : List Cell) :
    (∃ q c', mapTwo p op c = .ok (.ud2 q, c')) ↔ op.toNat = 0x0B := by
  constructor
  · rintro ⟨q, c', h⟩
    obtain ⟨_, ⟨-, -, hop, -⟩, -⟩ := fits_mapTwo p op c _ c' h
    exact congrArg BitVec.toNat hop.symm
  · intro h
    obtain rfl : op = 0x0B := BitVec.eq_of_toNat_eq h
    exact ⟨p, c, rfl⟩

/-- After the prefixes, opcode byte and next byte alone say whether the unit is Reserved. -/
theorem decodeOpcode_asUnit_reserved_iff {c : List Cell} (hc : NoReservedStop c) (p : Prefixes) (op next : Byte) :
    asUnit ((decodeOpcode p op (.byte next :: c)).map Prod.fst) = .error (.fault .reserved) ↔
      reservedPair op next = true := by
  rw [asUnit_reserved_iff]
  by_cases h : op = 0x0F
  · subst h
    have hmap : decodeOpcode p 0x0F (.byte next :: c) = mapTwo p next c := rfl
    rw [hmap, mapTwo_ud2_iff, or_iff_right (mapTwo_notReserved hc p next).ne]
    simp [reservedPair]
  · rw [decodeOpcode, if_neg h, mapOne_reserved_iff hc p next h]
    exact or_iff_left fun ⟨q, c', hud2⟩ => mapOne_ne_ud2 p q op _ c' hud2

/-! ### The prefixes and the buffer (R101, R104, R106 to R110) -/

/-- The loop refuses LOCK and REP after any prefixes it admits (R109). -/
theorem readPrefixes_refused {op : Byte} (hop : op = 0xF0 ∨ op = 0xF2 ∨ op = 0xF3) (c : List Cell) {l : List Prefix}
    {seen : Option SegReg} (hl : overridesAgree seen l) :
    readPrefixes seen (cells (prefixBytes l) ++ .byte op :: c) = .error (.notAdmitted [op]) := by
  induction l generalizing seen with
  | nil => rcases hop with rfl | rfl | rfl <;> rfl
  | cons q l ih =>
    rw [prefixBytes, List.map_cons, cells_cons, List.cons_append, readPrefixes, Prefix.ofByte_byte]
    cases q with
    | opSize => exact congrArg (Except.map _) (ih hl)
    | addrSize => exact congrArg (Except.map _) (ih hl)
    | seg s => exact (if_pos hl.1).trans (congrArg (Except.map _) (ih hl.2))

theorem decodeCells_refused {op : Byte} (hop : op = 0xF0 ∨ op = 0xF2 ∨ op = 0xF3) {z : OpSize} {l : List Prefix}
    (hwf : (⟨z, l⟩ : Prefixes).wf = true) (c : List Cell) :
    decodeCells z (cells (prefixBytes l) ++ .byte op :: c) = .error (.notAdmitted [op]) := by
  rw [decodeCells, readPrefixes_refused hop c ((Prefixes.wf_iff_overridesAgree z l).mp hwf)]
  rfl

theorem decodeCells_opcode {op : Byte} (hop : endsPrefixes op = true) {z : OpSize} {l : List Prefix}
    (hwf : (⟨z, l⟩ : Prefixes).wf = true) (c : List Cell) :
    decodeCells z (cells (prefixBytes l) ++ .byte op :: c) = decodeOpcode ⟨z, l⟩ op c := by
  rw [decodeCells, prefixBytes, readPrefixes_wf c hwf hop]
  rfl

/-- The buffer's cells after those of `bytes`, when `rest` follows them. -/
def cellsAfter (bytes rest : List Byte) : List Cell :=
  cells (rest.take (maxInsnLen - bytes.length)) ++
    [Cell.stop (.fault (if maxInsnLen ≤ (bytes ++ rest).length then .tooLong else .truncated))]

theorem bufferCells_append {bytes : List Byte} (h : bytes.length ≤ maxInsnLen) (rest : List Byte) :
    bufferCells (bytes ++ rest) = cells bytes ++ cellsAfter bytes rest := by
  rw [bufferCells, List.take_append, List.take_of_length_le h, List.map_append, List.append_assoc, cellsAfter, cells,
    cells]

/-- Only TooLong or Truncated ends the buffer. -/
theorem cellsAfter_noReservedStop (bytes rest : List Byte) : NoReservedStop (cellsAfter bytes rest) := by
  simp only [NoReservedStop, cellsAfter, cells, List.mem_append, List.mem_map, List.mem_singleton]
  split <;> simp

/-- Settles O4: LOCK and REP are refused, and any other byte after the prefixes is the opcode. -/
theorem reservedEncodingsFault : Obligations.ReservedEncodingsFault := by
  intro z l op next rest hwf hlen hop
  have hbytes : prefixBytes l ++ op :: next :: rest = (prefixBytes l ++ [op, next]) ++ rest := by simp
  have hshort : (prefixBytes l ++ [op, next]).length ≤ maxInsnLen := by
    rw [List.length_append, prefixBytes, List.length_map]
    exact Nat.add_le_add_right hlen 2
  rw [decode, hbytes, bufferCells_append hshort, cells_append, List.append_assoc, cells_cons, List.cons_append]
  by_cases hrefused : op = 0xF0 ∨ op = 0xF2 ∨ op = 0xF3
  · rw [decodeCells_refused hrefused hwf]
    rcases hrefused with rfl | rfl | rfl <;> simp [Except.map, asUnit, reservedPair]
  · have hends : endsPrefixes op = true := by simpa [endsPrefixes, hop, not_or, and_assoc] using hrefused
    rw [decodeCells_opcode hends hwf]
    exact decodeOpcode_asUnit_reserved_iff (cellsAfter_noReservedStop _ _) ⟨z, l⟩ op next

end Sys2Proof.Machine
end

section
/-! PROOFS. UnitProtocol, first part: the flag generator (40_unit_protocol.md R169 to R173) and the ALU rows that share
`aluBody` and `compareBody`. `exec_aluInstr` and `exec_cmpInstr` name the body of every row once; each operation has one
lemma that gives its result and flags as the rule writes them. Settles O35, O36, O39. -/

namespace Sys2Proof.Machine

open Sys2Proof.Claims

/-! ### The flag generator (R169 to R173) -/

/-- An even number of members satisfy `q` exactly when the exclusive or over the members is false. -/
theorem filter_length_even {α : Type} (q : α → Bool) (l : List α) :
    ((l.filter q).length % 2 == 0) = !(l.foldr (fun x b => q x ^^ b) false) := by
  induction l with
  | nil => rfl
  | cons x l ih =>
    have flip (m : Nat) : ((m + 1) % 2 == 0) = !(m % 2 == 0) := by
      rcases Nat.mod_two_eq_zero_or_one m with h | h <;> simp [Nat.add_mod, h]
    cases hq : q x with
    | false => simpa [hq] using ih
    | true => simp [hq, flip, ih]

theorem parity_eq_evenLow {n : Nat} (r : BitVec n) : parity r = evenLow r := by
  have hrange : List.range 8 = [0, 1, 2, 3, 4, 5, 6, 7] := rfl
  rw [parity, filter_length_even, hrange, evenLow]
  simp only [List.foldr_cons, List.foldr_nil, Bool.xor_false, Bool.xor_assoc]

/-- SF, ZF and PF as `szp` sets them (R170). -/
theorem szp_eq {n : Nat} (r : BitVec n) (f : Flags) :
    szp r f = { f with sf := r.getLsbD (n - 1), zf := decide (r = 0), pf := evenLow r } := by
  simp only [szp, BitVec.msb_eq_getLsbD_last, parity_eq_evenLow]
  rfl

theorem addResult_eq_sum {n : Nat} (a b : BitVec n) (cin : Bool) : addResult a b cin = sum a b cin := by
  simp [addResult, sum, BitVec.ofNat_add]

theorem addFlags_eq_sumFlags {n : Nat} (a b : BitVec n) (cin : Bool) (f : Flags) :
    addFlags a b cin f = sumFlags a b cin := by
  simp [addFlags, addResult_eq_sum, szp_eq, sumFlags, bne, beq_eq_decide]

theorem ofInt_sub {n : Nat} (x y : Int) : BitVec.ofInt n (x - y) = BitVec.ofInt n x - BitVec.ofInt n y := by
  rw [Int.sub_eq_add_neg, BitVec.ofInt_add, BitVec.ofInt_neg, ← BitVec.sub_eq_add_neg]

theorem subResult_eq_difference {n : Nat} (a b : BitVec n) (bin : Bool) : subResult a b bin = difference a b bin := by
  simp [subResult, difference, ofInt_sub]

theorem subFlags_eq_differenceFlags {n : Nat} (a b : BitVec n) (bin : Bool) (f : Flags) :
    subFlags a b bin f = differenceFlags a b bin := by
  simp [subFlags, subResult_eq_difference, szp_eq, differenceFlags, bne, beq_eq_decide]

theorem logicFlags_eq_logicalFlags {n : Nat} (r : BitVec n) (f : Flags) : logicFlags r f = logicalFlags r f := by
  rw [logicFlags, szp_eq, logicalFlags]

/-! ### The operations of the ALU -/

theorem aluAdd_eq (n : Nat) (f : Flags) (a b : BitVec n) : aluAdd n f a b = (sum a b false, sumFlags a b false) := by
  rw [aluAdd, addResult_eq_sum, addFlags_eq_sumFlags]

theorem aluAdc_eq (n : Nat) (f : Flags) (a b : BitVec n) : aluAdc n f a b = (sum a b f.cf, sumFlags a b f.cf) := by
  rw [aluAdc, addResult_eq_sum, addFlags_eq_sumFlags]

theorem aluSub_eq (n : Nat) (f : Flags) (a b : BitVec n) :
    aluSub n f a b = (difference a b false, differenceFlags a b false) := by
  rw [aluSub, subResult_eq_difference, subFlags_eq_differenceFlags]

theorem aluSbb_eq (n : Nat) (f : Flags) (a b : BitVec n) :
    aluSbb n f a b = (difference a b f.cf, differenceFlags a b f.cf) := by
  rw [aluSbb, subResult_eq_difference, subFlags_eq_differenceFlags]

theorem aluAnd_eq (n : Nat) (f : Flags) (a b : BitVec n) : aluAnd n f a b = (a &&& b, logicalFlags (a &&& b) f) := by
  rw [aluAnd, logicFlags_eq_logicalFlags]

theorem aluOr_eq (n : Nat) (f : Flags) (a b : BitVec n) : aluOr n f a b = (a ||| b, logicalFlags (a ||| b) f) := by
  rw [aluOr, logicFlags_eq_logicalFlags]

theorem aluXor_eq (n : Nat) (f : Flags) (a b : BitVec n) : aluXor n f a b = (a ^^^ b, logicalFlags (a ^^^ b) f) := by
  rw [aluXor, logicFlags_eq_logicalFlags]

/-! ### Rows by shape (41_arith.md R200) -/

/-- The operation of a row; CMP computes SUB's (R205). -/
def aluOpOf : AluName → AluOp
  | .add => aluAdd
  | .or => aluOr
  | .adc => aluAdc
  | .sbb => aluSbb
  | .and => aluAnd
  | .sub => aluSub
  | .xor => aluXor
  | .cmp => aluSub

/-- How a body reads a source: an operand through the oracle, an immediate as it is. -/
def readSource (s : State) (z : Size) : Source z → Except Stop (BitVec z.bits)
  | .inl r => s.readRef z r
  | .inr v => .ok v

theorem readSource_of_readable {s : State} {z : Size} {src : Source z} (h : srcReadable s z src = true) :
    readSource s z src = .ok (srcValue s z src) := by
  cases src with
  | inl r => exact State.readRef_of_readable h
  | inr v => rfl

/-- An `iz` immediate is cut to the operand width the same way from its own width as from 32 bits (R130). -/
theorem immz_eq_immValue (z : Size) (v : Immz) : immz z v = immValue z v := by
  cases v with
  | i16 v => cases z <;> simp [immz, immValue, Immz.zext, BitVec.setWidth_setWidth_of_le]
  | i32 v => rfl

/-- The body of every ALU row but CMP's. -/
theorem exec_aluInstr (p : Prefixes) {n : AluName} (hn : n ≠ .cmp) (f : AluForm) (s : State) :
    exec (aluInstr p n f) s = runUnit (aluInstr p n f).len
      (aluBody (aluOpOf n) (f.size p) (f.dst p) (readSource s (f.size p) (f.src p)) s) s := by
  cases f with
  | eaxImmz v | rmvImmz _ v =>
    simp only [AluForm.src, readSource, AluForm.size, ← immz_eq_immValue]
    cases n with
    | cmp => exact absurd rfl hn
    | _ => rfl
  | _ =>
    cases n with
    | cmp => exact absurd rfl hn
    | _ => rfl

/-- The body of every row of CMP. -/
theorem exec_cmpInstr (p : Prefixes) (f : AluForm) (s : State) :
    exec (aluInstr p .cmp f) s = runUnit (aluInstr p .cmp f).len
      (compareBody aluSub (f.size p) (f.dst p) (readSource s (f.size p) (f.src p)) s) s := by
  cases f with
  | eaxImmz v | rmvImmz _ v =>
    simp only [AluForm.src, readSource, AluForm.size, ← immz_eq_immValue]
    rfl
  | _ => rfl

/-- An ALU row with operands that can be read and written: dst holds the operation's result, the flags are its flags. -/
theorem exec_aluInstr_next {p : Prefixes} {n : AluName} (hn : n ≠ .cmp) {f : AluForm} {s : State}
    (hd : s.readable (f.size p) (f.dst p) = true) (hs : srcReadable s (f.size p) (f.src p) = true)
    (hw : s.writable (f.size p) (f.dst p) = true) {r : BitVec (f.size p).bits} {fl : Flags}
    (hop : aluOpOf n (f.size p).bits s.flags (s.operand (f.size p) (f.dst p)) (srcValue s (f.size p) (f.src p)) =
      (r, fl)) :
    exec (aluInstr p n f) s = .next (s.advance (aluInstr p n f)
      { s.withOperand (f.size p) (f.dst p) r with flags := fl }) := by
  rw [exec_aluInstr p hn f s, aluBody_next _ hd (readSource_of_readable hs) hw, hop]

/-- Settles O35: the sum's result and flags, with CF or without. -/
theorem addAndAdcResult : Obligations.AddAndAdcResult := by
  intro p f s hd hs hw
  exact ⟨exec_aluInstr_next (n := .add) (by decide) hd hs hw (aluAdd_eq _ _ _ _),
    exec_aluInstr_next (n := .adc) (by decide) hd hs hw (aluAdc_eq _ _ _ _)⟩

/-- Settles O36: the difference's result and flags; CMP asks for no write. -/
theorem subSbbAndCmpResult : Obligations.SubSbbAndCmpResult := by
  intro p f s hd hs
  refine ⟨fun hw => ⟨exec_aluInstr_next (n := .sub) (by decide) hd hs hw (aluSub_eq _ _ _ _),
    exec_aluInstr_next (n := .sbb) (by decide) hd hs hw (aluSbb_eq _ _ _ _)⟩, ?_⟩
  rw [exec_cmpInstr, compareBody_next _ hd (readSource_of_readable hs), aluSub_eq]

/-- Settles O39: the bitwise result, its flags, and AF as before. -/
theorem logicResult : Obligations.LogicResult := by
  intro p f s hd hs hw
  exact ⟨exec_aluInstr_next (n := .and) (by decide) hd hs hw (aluAnd_eq _ _ _ _),
    exec_aluInstr_next (n := .or) (by decide) hd hs hw (aluOr_eq _ _ _ _),
    exec_aluInstr_next (n := .xor) (by decide) hd hs hw (aluXor_eq _ _ _ _)⟩

end Sys2Proof.Machine
end

section
/-! PROOFS. UnitProtocol, second part: a unit as the checks of its rule (40_unit_protocol.md R167). `Runs s l tag body`
says that a body asks the checks `l` in order, stops at the first that fails, and else stages an effect with that tag
and the store of `l`; it is proved from a body's parts, so each shared body has one lemma, and `exec_runs` names the
body of each instruction. Settles O31 and O32. -/

namespace Sys2Proof.Machine

open Sys2Proof.Claims

/-! ### The rules' formulas and the model's -/

theorem stackWide_eq (s : State) : s.stackWide = wideStack s := by
  simp [State.stackWide, wideStack, beq_eq_decide]

theorem sp_eq_spOf (s : State) : s.sp = spOf s := by
  simp [State.sp, spOf, State.truncSp, stackWide_eq, BitVec.setWidth_eq_extractLsb']

theorem pushSp_eq_spMinus (s : State) (n : Nat) : s.pushSp n = spMinus s n := by
  simp only [State.pushSp, State.truncSp, spMinus, State.sp, stackWide_eq]
  split
  · rfl
  · congr 1
    apply BitVec.eq_of_toNat_eq
    simp
    omega

theorem clCount_eq_clOf (s : State) : s.clCount = clOf s := by
  simp [State.clCount, clOf, Gprs.view, Reg.byteHigh, Reg.byteHome, Gprs.get]

theorem holds_eq_condition (cc : Cond) (f : Flags) : Cond.holds f cc = condition cc f := by
  have heq : (f.sf == f.of) = !(f.sf ^^ f.of) := by cases f.sf <;> cases f.of <;> rfl
  cases cc <;> simp [Cond.holds, condition, Cond.bits, heq]

theorem and_low16 (t : Word) : t &&& 0x0000FFFF = (t.setWidth 16).setWidth 32 := by
  apply BitVec.eq_of_toNat_eq
  have h : t.toNat &&& 65535 = t.toNat % 65536 := Nat.and_two_pow_sub_one_eq_mod _ 16
  simp [h]
  omega

theorem truncTarget_eq_target (p : Prefixes) (t : Word) : truncTarget p t = target p t := by
  unfold truncTarget target
  cases p.opSize with
  | w16 => exact and_low16 t
  | w32 => rfl

/-- A target of the operand width is within it already. -/
theorem indirectTarget_eq (p : Prefixes) (v : BitVec p.opSize.size.bits) : indirectTarget p v = v.setWidth 32 := by
  rw [indirectTarget, truncTarget_eq_target, target]
  split
  · next h =>
    have hbits : p.opSize.size.bits = 16 := by rw [h]; rfl
    have hv : v.toNat < 2 ^ 16 := lt_of_lt_of_eq v.isLt (by rw [hbits])
    apply BitVec.eq_of_toNat_eq
    simp
    omega
  · rfl

theorem toNat_append_eq {m n : Nat} (x : BitVec m) (y : BitVec n) : (x ++ y).toNat = x.toNat * 2 ^ n + y.toNat := by
  rw [BitVec.toNat_append, ← Nat.shiftLeft_add_eq_or_of_lt y.isLt, Nat.shiftLeft_eq]

theorem toNat_dividend (g : Gprs) (z : Size) : (dividend g z).toNat = g.dividend z := by
  cases z with
  | s8 => exact congrArg BitVec.toNat (BitVec.extractLsb'_append_extractLsb'_eq_extractLsb' (x := g.eax) (by rfl))
  | s16 => exact toNat_append_eq _ _
  | s32 => exact toNat_append_eq _ _

theorem toInt_dividend (g : Gprs) (z : Size) : (dividend g z).toInt = g.signedDividend z := by
  rw [Gprs.signedDividend, BitVec.toInt_eq_toNat_bmod, BitVec.toInt_eq_toNat_bmod, BitVec.toNat_ofNat,
    ← toNat_dividend, Nat.two_mul, Nat.mod_eq_of_lt (BitVec.isLt _)]

theorem divFails_iff (s : State) (z : Size) (src : Ref) : divFails s z src = true ↔
    (s.operand z src).toNat = 0 ∨ 2 ^ z.bits ≤ s.gpr.dividend z / (s.operand z src).toNat := by
  simp only [divFails, toNat_dividend, Bool.or_eq_true, decide_eq_true_eq]

theorem toInt_eq_zero_iff {n : Nat} (x : BitVec n) : x.toInt = 0 ↔ x.toNat = 0 := by
  have h := x.isLt
  rw [BitVec.toInt_eq_toNat_cond]
  split <;> omega

theorem idivFails_iff (s : State) (z : Size) (src : Ref) : idivFails s z src = true ↔
    (s.operand z src).toInt = 0 ∨ Int.tdiv (s.gpr.signedDividend z) (s.operand z src).toInt < -2 ^ (z.bits - 1) ∨
      2 ^ (z.bits - 1) - 1 < Int.tdiv (s.gpr.signedDividend z) (s.operand z src).toInt := by
  simp only [idivFails, signedQuotient, toInt_dividend, Bool.or_eq_true, decide_eq_true_eq, or_assoc,
    toInt_eq_zero_iff, Int.sub_one_lt_iff]

/-! ### Asking checks (20_memory.md R75) -/

/-- A body's answer to an answer of a check. -/
def outcomeOf : AccessAnswer → Except Stop Unit
  | .ok => .ok ()
  | .fault v c => .error (.trap v c)
  | .unmodelled => .error (.refuse .unmodelledMemory)

/-- Ask checks in order, up to the first that fails. -/
def askAll (s : State) (l : List Check) : Except Stop Unit := outcomeOf (firstFailure s l)

theorem askAll_cons (s : State) (c : Check) (l : List Check) :
    askAll s (c :: l) = (outcomeOf (c.answer s) >>= fun _ => askAll s l) := by
  unfold askAll
  rw [firstFailure]
  cases c.answer s <;> rfl

theorem State.check_eq (s : State) (k : AccessKind) (g : SegReg) (off : Word) (n : Nat) :
    s.check k g off n = outcomeOf (s.access k g off n) := by
  unfold State.check
  cases s.access k g off n <;> rfl

/-- The bytes an effect stores to: linear address and length. -/
def Effect.stores (e : Effect) : Option (Word × Nat) := e.store.map fun w => (w.lin, w.bytes.length)

/-- The body asks the checks of `l` in order, stops at the first that fails, and else stages an effect with the tag
`tag` and the store of `l`. -/
def Runs (s : State) (l : List Check) (tag : Tag) (body : Except Stop Effect) : Prop :=
  ∃ e, body = (askAll s l >>= fun _ => .ok e) ∧ e.tag = tag ∧ e.stores = l.findSome? (Check.store s)

/-! ### Bodies from their parts -/

theorem Runs.ok {s : State} {e : Effect} (h : e.store = none) : Runs s [] e.tag (.ok e) :=
  ⟨e, rfl, rfl, by simp [Effect.stores, h]⟩

/-- A check that stores nothing, then the rest of the body. -/
theorem Runs.ask {s : State} {c : Check} {l : List Check} {tag : Tag} {body : Except Stop Effect}
    (hc : c.store s = none) (h : Runs s l tag body) :
    Runs s (c :: l) tag (outcomeOf (c.answer s) >>= fun _ => body) := by
  obtain ⟨e, rfl, htag, hstore⟩ := h
  exact ⟨e, by rw [askAll_cons, bind_assoc], htag, by simpa [hc] using hstore⟩

/-- A change of what a body staged that leaves the store. -/
theorem Runs.andThen {s : State} {l : List Check} {tag : Tag} {body : Except Stop Effect} (h : Runs s l tag body)
    {k : Effect → Effect} {tag' : Tag} (hstore : ∀ e, (k e).store = e.store)
    (htag : ∀ e, e.tag = tag → (k e).tag = tag') : Runs s l tag' (body >>= fun e => .ok (k e)) := by
  obtain ⟨e, rfl, ht, hs⟩ := h
  exact ⟨k e, by rw [bind_assoc]; rfl, htag e ht, by rw [← hs, Effect.stores, hstore, Effect.stores]⟩

theorem Runs.read {s : State} {z : Size} {r : Ref} {l : List Check} {tag : Tag}
    {k : BitVec z.bits → Except Stop Effect} (h : Runs s l tag (k (s.operand z r))) : Runs s (.read z r :: l) tag (s.readRef z r >>= k) := by
  have hread : s.readRef z r = (outcomeOf ((Check.read z r).answer s) >>= fun _ => .ok (s.operand z r)) := by
    cases r with
    | reg r => rfl
    | mem g ea => rw [State.readRef, State.memRead, State.check_eq]; rfl
  rw [hread, bind_assoc]
  exact .ask rfl h

theorem Runs.pop {s : State} {z : Size} {l : List Check} {tag : Tag} {k : BitVec z.bits → Except Stop Effect}
    (h : Runs s l tag (k (s.top z))) : Runs s (.pop z :: l) tag (s.popRead z >>= k) := by
  have hread : s.popRead z = (outcomeOf ((Check.pop z).answer s) >>= fun _ => .ok (s.top z)) := by
    rw [State.popRead, State.memRead, State.check_eq, Check.answer, ← sp_eq_spOf]
    rfl
  rw [hread, bind_assoc]
  exact .ask rfl h

theorem Runs.branch {s : State} {t : Word} {l : List Check} {tag : Tag} {body : Except Stop Effect}
    (h : Runs s l tag body) : Runs s (.branch t :: l) tag (s.checkTarget t >>= fun _ => body) := by
  rw [State.checkTarget, State.check_eq]
  exact .ask rfl h

/-- The instruction's own check, which raises a fault. -/
theorem Runs.error {s : State} {v : Nat} {c : Option Word} {b : Bool} {p : Prop} [Decidable p] {l : List Check}
    {tag : Tag} {body : Except Stop Effect} (hp : b = true ↔ p) (h : Runs s l tag body) :
    Runs s (.error v c b :: l) tag (if p then .error (.trap v c) else body) := by
  have hask : (if p then .error (.trap v c) else body) =
      (outcomeOf ((Check.error v c b).answer s) >>= fun _ => body) := by
    by_cases hb : b = true
    · rw [if_pos (hp.mp hb), Check.answer, if_pos hb]
      rfl
    · rw [if_neg (mt hp.mpr hb), Check.answer, if_neg hb]
      rfl
  rw [hask]
  exact .ask rfl h

theorem Runs.memWrite {s : State} {c : Check} {g : SegReg} {off : Word} {z : Size} (v : BitVec z.bits) (e : Effect)
    (ha : c.answer s = s.access .write g off z.bytes) (hs : c.store s = some (s.lin g off, z.bytes)) :
    Runs s [c] e.tag (s.memWrite g off z v e) := by
  refine ⟨{ e with store := some ⟨s.lin g off, leBytes z.bytes v.toNat⟩ }, ?_, rfl, ?_⟩
  · rw [State.memWrite, State.check_eq, askAll_cons, ha, bind_assoc]
    rfl
  · simp [Effect.stores, hs]

theorem Runs.write {s : State} {z : Size} (r : Ref) (v : BitVec z.bits) {e : Effect} (he : e.store = none) :
    Runs s [.write z r] e.tag (s.writeRef z r v e) := by
  cases r with
  | reg r => exact ⟨{ e with gpr := e.gpr.setView z r v }, rfl, rfl, by simp [Effect.stores, he, Check.store]⟩
  | mem g ea => exact .memWrite v e rfl rfl

theorem Runs.push (s : State) {z : Size} (v : BitVec z.bits) (e : Effect) :
    Runs s [.push z] e.tag (s.push z v e) := by
  refine .andThen (.memWrite v e ?_ ?_) (fun _ => rfl) fun _ h => h
  · rw [pushSp_eq_spMinus]; rfl
  · rw [pushSp_eq_spMinus]; rfl

/-! ### The shared bodies -/

theorem aluBody_runs {op : AluOp} {z : Size} (dst : Ref) (b : BitVec z.bits) {s : State} :
    Runs s (update z dst) .noBranch (aluBody op z dst (.ok b) s) :=
  .read (.write dst _ rfl)

/-- The same with a register for dst and any operand for src. -/
theorem aluBody_load_runs {op : AluOp} {z : Size} (dst : Reg) (src : Ref) {s : State} :
    Runs s [.read z src] .noBranch (aluBody op z (.reg dst) (s.readRef z src) s) :=
  .read (.ok rfl)

theorem compareBody_runs {op : AluOp} {z : Size} (r : Ref) (b : BitVec z.bits) {s : State} :
    Runs s [.read z r] .noBranch (compareBody op z r (.ok b) s) :=
  .read (.ok rfl)

theorem compareBody_load_runs {op : AluOp} {z : Size} (r : Reg) (src : Ref) {s : State} :
    Runs s [.read z src] .noBranch (compareBody op z (.reg r) (s.readRef z src) s) :=
  .read (.ok rfl)

theorem unaryBody_runs {op : UnaryOp} {z : Size} (dst : Ref) {s : State} :
    Runs s (update z dst) .noBranch (unaryBody op z dst s) :=
  .read (.write dst _ rfl)

theorem moveBody_runs {z : Size} (dst : Ref) (v : BitVec z.bits) {s : State} :
    Runs s [.write z dst] .noBranch (moveBody z dst (.ok v) s) :=
  .write dst v rfl

theorem moveBody_load_runs {z : Size} (dst : Reg) (src : Ref) {s : State} :
    Runs s [.read z src] .noBranch (moveBody z (.reg dst) (s.readRef z src) s) :=
  .read (.ok rfl)

theorem xchgBody_runs {z : Size} (op1 : Ref) (op2 : Reg) {s : State} :
    Runs s (update z op1) .noBranch (xchgBody z op1 op2 s) :=
  .read (.andThen (.write op1 _ rfl) (fun _ => rfl) fun _ h => h)

theorem leaBody_runs (z : Size) (dst : Reg) (ea : EA) {s : State} : Runs s [] .noBranch (leaBody z dst ea s) :=
  .ok rfl

theorem flagBody_runs (f : Flags) {s : State} : Runs s [] .noBranch (flagBody f s) :=
  .ok rfl

/-- MUL, IMUL, MOVZX, MOVSX: one operand is read, then registers and flags are staged. -/
theorem readThen_runs {z : Size} {src : Ref} {s : State} {k : BitVec z.bits → Effect} {tag : Tag}
    (hs : ∀ v, (k v).store = none) (ht : ∀ v, (k v).tag = tag) :
    Runs s [.read z src] tag (s.readRef z src >>= fun v => .ok (k v)) := by
  rw [← ht (s.operand z src)]
  exact .read (.ok (hs _))

theorem pushBody_runs {z : Size} (v : BitVec z.bits) {s : State} :
    Runs s [.push z] .noBranch (pushBody z (.ok v) s) :=
  .push s v _

theorem pushBody_load_runs {z : Size} (src : Ref) {s : State} :
    Runs s [.read z src, .push z] .noBranch (pushBody z (s.readRef z src) s) :=
  .read (.push s _ _)

theorem popBody_runs {z : Size} (dst : Reg) {s : State} : Runs s [.pop z] .noBranch (popBody z dst s) :=
  .pop (.ok rfl)

theorem cbwBody_runs (z : OpSize) {s : State} : Runs s [] .noBranch (cbwBody z s) := by
  cases z <;> exact .ok rfl

theorem cwdBody_runs (z : OpSize) {s : State} : Runs s [] .noBranch (cwdBody z s) := by
  cases z <;> exact .ok rfl

theorem divBody_runs {z : Size} (src : Ref) {s : State} :
    Runs s [.read z src, .error 0 none (divFails s z src)] .noBranch (divBody z src s) := by
  refine .read ?_
  simp only [← ite_or]
  exact .error (divFails_iff s z src) (.ok rfl)

theorem idivBody_runs {z : Size} (src : Ref) {s : State} :
    Runs s [.read z src, .error 0 none (idivFails s z src)] .noBranch (idivBody z src s) := by
  refine .read ?_
  simp only [← ite_or]
  exact .error (idivFails_iff s z src) (.ok rfl)

theorem hltBody_runs {s : State} : Runs s [.error 13 (some 0) (!atLevelZero s)] .halt (hltBody s) :=
  .error (by simp [atLevelZero]) (.ok rfl)

/-- A branch to the target the claims name. -/
theorem jccBody_runs {cc : Cond} {t t' : Word} (ht : t = t') {s : State} :
    Runs s (if condition cc s.flags then [.branch t'] else []) (.cond (condition cc s.flags) t') (jccBody cc t s) := by
  rw [jccBody, holds_eq_condition, ht]
  cases h : condition cc s.flags with
  | true => exact .branch (.ok rfl)
  | false => exact .ok rfl

theorem jmpBody_runs {t t' : Word} (ht : t = t') {s : State} : Runs s [.branch t'] (.jump t') (jmpBody t s) := by
  rw [← ht]
  exact .branch (.ok rfl)

theorem jmpRefBody_runs (p : Prefixes) (src : Ref) {s : State} :
    Runs s [.read p.opSize.size src, .branch (pointed p s src)] (.jump (pointed p s src)) (jmpRefBody p src s) :=
  .read (jmpBody_runs (indirectTarget_eq p _))

theorem callBody_runs (p : Prefixes) (len : Nat) {t t' : Word} (ht : t = t') {s : State} :
    Runs s [.branch t', .push p.opSize.size] (.jump t') (callBody p len t s) := by
  rw [← ht]
  exact .branch (.andThen (.push s _ _) (fun _ => rfl) fun _ _ => rfl)

theorem callRefBody_runs (p : Prefixes) (len : Nat) (src : Ref) {s : State} :
    Runs s [.read p.opSize.size src, .branch (pointed p s src), .push p.opSize.size] (.jump (pointed p s src))
      (callRefBody p len src s) :=
  .read (callBody_runs p len (indirectTarget_eq p _))

theorem retBody_runs (p : Prefixes) (k : Nat) {s : State} :
    Runs s [.pop p.opSize.size, .branch (returned p s)] (.jump (returned p s)) (retBody p k s) := by
  refine .pop ?_
  rw [indirectTarget_eq]
  exact .branch (.ok rfl)

/-! ### Shifts and rotates (43_shift_rotate.md R250) -/

theorem shiftBody_runs {op : ShiftOp} {z : Size} (dst : Ref) {c : Nat} {s : State} {p : Prop} [Decidable p]
    (hop : op s.params z.bits s.flags s.draws (s.operand z dst) c = none ↔ p) :
    Runs s (if p then [.read z dst] else update z dst) .noBranch (shiftBody op z dst c s) := by
  cases ho : op s.params z.bits s.flags s.draws (s.operand z dst) c with
  | none =>
    rw [if_pos (hop.mp ho)]
    refine .read ?_
    simp only [ho]
    exact .ok rfl
  | some o =>
    rw [if_neg fun hp => by simp [hop.mpr hp] at ho]
    refine .read ?_
    simp only [ho]
    exact .write dst _ rfl

/-- The five operations that write nothing when the masked count is 0. -/
theorem shiftBody_masked_runs {op : ShiftOp} {z : Size} (dst : Ref) {c c' : Nat} (hc : c = c') {s : State}
    (hop : ∀ q n f d (a : BitVec n) c, op q n f d a c = none ↔ c % 32 = 0) :
    Runs s (shiftChecks z dst c') .noBranch (shiftBody op z dst c s) := by
  rw [← hc]
  exact shiftBody_runs dst (hop _ _ _ _ _ _)

/-- RCL and RCR write nothing when the masked count is 0 modulo N + 1 (R253, R254). -/
theorem shiftBody_carry_runs {op : ShiftOp} {z : Size} (dst : Ref) {c c' : Nat} (hc : c = c') {s : State}
    (hop : ∀ q n f d (a : BitVec n) c, op q n f d a c = none ↔ maskCarryCount q c % (n + 1) = 0) :
    Runs s (carryChecks s z dst c') .noBranch (shiftBody op z dst c s) := by
  rw [← hc]
  exact shiftBody_runs dst (hop _ _ _ _ _ _)

theorem ite_none_eq_none_iff {α : Type} {p : Prop} [Decidable p] {x : α} :
    (if p then none else some x) = none ↔ p := by
  simp

theorem rol_eq_none (q : Params) (n : Nat) (f : Flags) (d : Nat) (a : BitVec n) (c : Nat) :
    rol q n f d a c = none ↔ c % 32 = 0 := ite_none_eq_none_iff

theorem ror_eq_none (q : Params) (n : Nat) (f : Flags) (d : Nat) (a : BitVec n) (c : Nat) :
    ror q n f d a c = none ↔ c % 32 = 0 := ite_none_eq_none_iff

theorem shl_eq_none (q : Params) (n : Nat) (f : Flags) (d : Nat) (a : BitVec n) (c : Nat) :
    shl q n f d a c = none ↔ c % 32 = 0 := ite_none_eq_none_iff

theorem shr_eq_none (q : Params) (n : Nat) (f : Flags) (d : Nat) (a : BitVec n) (c : Nat) :
    shr q n f d a c = none ↔ c % 32 = 0 := ite_none_eq_none_iff

theorem sar_eq_none (q : Params) (n : Nat) (f : Flags) (d : Nat) (a : BitVec n) (c : Nat) :
    sar q n f d a c = none ↔ c % 32 = 0 := ite_none_eq_none_iff

theorem rcl_eq_none (q : Params) (n : Nat) (f : Flags) (d : Nat) (a : BitVec n) (c : Nat) :
    rcl q n f d a c = none ↔ maskCarryCount q c % (n + 1) = 0 := ite_none_eq_none_iff

theorem rcr_eq_none (q : Params) (n : Nat) (f : Flags) (d : Nat) (a : BitVec n) (c : Nat) :
    rcr q n f d a c = none ↔ maskCarryCount q c % (n + 1) = 0 := ite_none_eq_none_iff

/-! ### Every instruction -/

/-- The tags a unit may complete with (R164; 46_control.md R331). -/
def TagFits (i : Instr) : Tag → Prop
  | .noBranch => Instr.kind i = .plain
  | .jump _ => Instr.kind i = .terminator
  | .cond _ _ => Instr.kind i = .terminator
  | .halt => isHlt i = true
  | .trap _ _ => False

/-- The unit of `i` asks the checks of its rule in order, and when all pass completes with a tag that fits it. -/
def UnitRuns (i : Instr) (s : State) : Prop :=
  ∃ tag body, TagFits i tag ∧ exec i s = runUnit i.len body s ∧ Runs s (checks i s) tag body

theorem UnitRuns.plain {i : Instr} {s : State} {body : Except Stop Effect} (hk : Instr.kind i = .plain)
    (hx : exec i s = runUnit i.len body s) (h : Runs s (checks i s) .noBranch body) : UnitRuns i s :=
  ⟨.noBranch, body, hk, hx, h⟩

theorem UnitRuns.jump {i : Instr} {s : State} {body : Except Stop Effect} {t : Word}
    (hk : Instr.kind i = .terminator) (hx : exec i s = runUnit i.len body s)
    (h : Runs s (checks i s) (.jump t) body) : UnitRuns i s :=
  ⟨.jump t, body, hk, hx, h⟩

theorem UnitRuns.cond {i : Instr} {s : State} {body : Except Stop Effect} {b : Bool} {t : Word}
    (hk : Instr.kind i = .terminator) (hx : exec i s = runUnit i.len body s)
    (h : Runs s (checks i s) (.cond b t) body) : UnitRuns i s :=
  ⟨.cond b t, body, hk, hx, h⟩

theorem relTarget_eq (p : Prefixes) (i : Instr) (s : State) (rel : Word) :
    s.relTarget p i.len rel = target p (nextOf i s + rel) :=
  truncTarget_eq_target p _

/-- Each instruction asks the checks of its own rule. -/
theorem exec_runs (i : Instr) (s : State) (h : Instr.kind i ≠ .reserved) : UnitRuns i s := by
  cases i with
  | addRm8R8 | addRmvRv | addRm8Imm8 | addRmvImmz | addRmvImm8 | adcRm8R8 | adcRmvRv | adcRm8Imm8 | adcRmvImmz
  | adcRmvImm8 | subRm8R8 | subRmvRv | subRm8Imm8 | subRmvImmz | subRmvImm8 | sbbRm8R8 | sbbRmvRv | sbbRm8Imm8
  | sbbRmvImmz | sbbRmvImm8 | andRm8R8 | andRmvRv | andRm8Imm8 | andRmvImmz | andRmvImm8 | orRm8R8 | orRmvRv
  | orRm8Imm8 | orRmvImmz | orRmvImm8 | xorRm8R8 | xorRmvRv | xorRm8Imm8 | xorRmvImmz | xorRmvImm8 =>
    exact .plain rfl rfl (aluBody_runs _ _)
  | addAlImm8 | addEaxImmz | adcAlImm8 | adcEaxImmz | subAlImm8 | subEaxImmz | sbbAlImm8 | sbbEaxImmz | andAlImm8
  | andEaxImmz | orAlImm8 | orEaxImmz | xorAlImm8 | xorEaxImmz =>
    exact .plain rfl rfl (aluBody_runs (.reg .eax) _)
  | addR8Rm8 | addRvRmv | adcR8Rm8 | adcRvRmv | subR8Rm8 | subRvRmv | sbbR8Rm8 | sbbRvRmv | andR8Rm8 | andRvRmv
  | orR8Rm8 | orRvRmv | xorR8Rm8 | xorRvRmv => exact .plain rfl rfl (aluBody_load_runs _ _)
  | cmpRm8R8 | cmpRmvRv | cmpRm8Imm8 | cmpRmvImmz | cmpRmvImm8 | testRm8R8 | testRmvRv | testRm8Imm8
  | testRmvImmz => exact .plain rfl rfl (compareBody_runs _ _)
  | cmpAlImm8 | testAlImm8 => exact .plain rfl rfl (compareBody_runs (z := .s8) (.reg .eax) _)
  | cmpEaxImmz | testEaxImmz => exact .plain rfl rfl (compareBody_runs (.reg .eax) _)
  | cmpR8Rm8 | cmpRvRmv => exact .plain rfl rfl (compareBody_load_runs _ _)
  | incRv _ r | decRv _ r => exact .plain rfl rfl (unaryBody_runs (.reg r))
  | incRm8 | incRmv | decRm8 | decRmv | negRm8 | negRmv | notRm8 | notRmv =>
    exact .plain rfl rfl (unaryBody_runs _)
  | rolRm8Imm8 | rolRmvImm8 | rolRm8One | rolRmvOne =>
    exact .plain rfl rfl (shiftBody_masked_runs _ rfl rol_eq_none)
  | rorRm8Imm8 | rorRmvImm8 | rorRm8One | rorRmvOne =>
    exact .plain rfl rfl (shiftBody_masked_runs _ rfl ror_eq_none)
  | shlRm8Imm8 | shlRmvImm8 | shlRm8One | shlRmvOne =>
    exact .plain rfl rfl (shiftBody_masked_runs _ rfl shl_eq_none)
  | shrRm8Imm8 | shrRmvImm8 | shrRm8One | shrRmvOne =>
    exact .plain rfl rfl (shiftBody_masked_runs _ rfl shr_eq_none)
  | sarRm8Imm8 | sarRmvImm8 | sarRm8One | sarRmvOne =>
    exact .plain rfl rfl (shiftBody_masked_runs _ rfl sar_eq_none)
  | rclRm8Imm8 | rclRmvImm8 | rclRm8One | rclRmvOne =>
    exact .plain rfl rfl (shiftBody_carry_runs _ rfl rcl_eq_none)
  | rcrRm8Imm8 | rcrRmvImm8 | rcrRm8One | rcrRmvOne =>
    exact .plain rfl rfl (shiftBody_carry_runs _ rfl rcr_eq_none)
  | rolRm8Cl | rolRmvCl => exact .plain rfl rfl (shiftBody_masked_runs _ (clCount_eq_clOf s) rol_eq_none)
  | rorRm8Cl | rorRmvCl => exact .plain rfl rfl (shiftBody_masked_runs _ (clCount_eq_clOf s) ror_eq_none)
  | shlRm8Cl | shlRmvCl => exact .plain rfl rfl (shiftBody_masked_runs _ (clCount_eq_clOf s) shl_eq_none)
  | shrRm8Cl | shrRmvCl => exact .plain rfl rfl (shiftBody_masked_runs _ (clCount_eq_clOf s) shr_eq_none)
  | sarRm8Cl | sarRmvCl => exact .plain rfl rfl (shiftBody_masked_runs _ (clCount_eq_clOf s) sar_eq_none)
  | rclRm8Cl | rclRmvCl => exact .plain rfl rfl (shiftBody_carry_runs _ (clCount_eq_clOf s) rcl_eq_none)
  | rcrRm8Cl | rcrRmvCl => exact .plain rfl rfl (shiftBody_carry_runs _ (clCount_eq_clOf s) rcr_eq_none)
  | mulRm8 | mulRmv | imulRm8 | imulRmv | imulRvRmv | imulRvRmvImmz | imulRvRmvImm8 | movzxRvRm8 | movzxRvRm16
  | movsxRvRm8 | movsxRvRm16 => exact .plain rfl rfl (readThen_runs (fun _ => rfl) fun _ => rfl)
  | divRm8 | divRmv => exact .plain rfl rfl (divBody_runs _)
  | idivRm8 | idivRmv => exact .plain rfl rfl (idivBody_runs _)
  | movRm8R8 | movRmvRv | movMoffs8Al | movMoffsvEax | movRm8Imm8 | movRmvImmz | setccRm8 =>
    exact .plain rfl rfl (moveBody_runs _ _)
  | movR8Imm8 _ r | movRvImmz _ r => exact .plain rfl rfl (moveBody_runs (.reg r) _)
  | movR8Rm8 | movRvRmv | movAlMoffs8 | movEaxMoffsv => exact .plain rfl rfl (moveBody_load_runs _ _)
  | xchgRm8R8 | xchgRmvRv => exact .plain rfl rfl (xchgBody_runs _ _)
  | xchgEaxEcx | xchgEaxEdx | xchgEaxEbx | xchgEaxEsp | xchgEaxEbp | xchgEaxEsi | xchgEaxEdi =>
    exact .plain rfl rfl (xchgBody_runs (.reg .eax) _)
  | leaRvM => exact .plain rfl rfl (leaBody_runs _ _ _)
  | clc | stc | cmc => exact .plain rfl rfl (flagBody_runs _)
  | nop => exact .plain rfl rfl (.ok (e := Effect.start s) rfl)
  | cbwCwde p => exact .plain rfl rfl (cbwBody_runs p.opSize)
  | cwdCdq p => exact .plain rfl rfl (cwdBody_runs p.opSize)
  | pushRv | pushImmz | pushImm8 => exact .plain rfl rfl (pushBody_runs _)
  | pushRmv => exact .plain rfl rfl (pushBody_load_runs _)
  | popRv => exact .plain rfl rfl (popBody_runs _)
  | jccRel8 | jccRelz => exact .cond rfl rfl (jccBody_runs (relTarget_eq _ _ s _))
  | jmpRel8 | jmpRelz => exact .jump rfl rfl (jmpBody_runs (relTarget_eq _ _ s _))
  | jmpRmv => exact .jump rfl rfl (jmpRefBody_runs _ _)
  | callRelz => exact .jump rfl rfl (callBody_runs _ _ (relTarget_eq _ _ s _))
  | callRmv => exact .jump rfl rfl (callRefBody_runs _ _ _)
  | ret | retImm16 => exact .jump rfl rfl (retBody_runs _ _)
  | hlt => exact ⟨.halt, _, rfl, rfl, hltBody_runs⟩
  | ud2 => exact absurd rfl h

theorem Effect.hitsBlock_eq_storeHits {i : Instr} {s : State} {e : Effect} (h : e.stores = stored i s) :
    e.hitsBlock s = storeHits i s := by
  rw [storeHits, ← h, Effect.stores, Effect.hitsBlock]
  cases e.store <;> rfl

/-- A unit that answers a next state traps, or commits an effect with its tag. -/
theorem Runs.next {s t : State} {l : List Check} {tag : Tag} {body : Except Stop Effect} {len : Nat}
    (h : Runs s l tag body) (ht : runUnit len body s = .next t) :
    (∃ v c, t = s.takeTrap v c) ∨ ∃ e : Effect, e.tag = tag ∧ t = s.commit len e := by
  obtain ⟨e, hbody, htag, -⟩ := h
  obtain ⟨v, c, -, rfl⟩ | ⟨e', hok, -, rfl⟩ := runUnit_next ht
  · exact .inl ⟨v, c, rfl⟩
  · rw [hbody] at hok
    cases hask : askAll s l with
    | error x => simp [hask, bind, Except.bind] at hok
    | ok u =>
      rw [hask] at hok
      exact .inr ⟨e', Except.ok.inj hok ▸ htag, rfl⟩

/-- Settles O31: a next state is a trap's, or a commit's with a tag that fits the instruction. -/
theorem tagDecidesEipAndTrapsArePrecise : Obligations.TagDecidesEipAndTrapsArePrecise := by
  intro i s t ht hk
  obtain ⟨tag, body, hfits, hexec, hruns⟩ := exec_runs i s hk
  obtain ⟨v, c, rfl⟩ | ⟨e, htag, rfl⟩ := hruns.next (hexec ▸ ht)
  · rfl
  · rw [State.commit_lastTag, State.commit_eip, htag]
    cases tag with
    | trap v c => exact hfits.elim
    | cond taken d => cases taken <;> exact ⟨hfits, rfl⟩
    | noBranch | jump d | halt => exact ⟨hfits, rfl⟩

/-- Settles O32: the first check that fails is where the body stops; past them its store decides, and its tag is no
trap's. -/
theorem checksDecideTheOutcomeInOrder : Obligations.ChecksDecideTheOutcomeInOrder := by
  intro i s hk
  obtain ⟨tag, body, hfits, hexec, e, hbody, rfl, hstores⟩ := exec_runs i s hk
  rw [hexec, hbody, askAll]
  cases firstFailure s (checks i s) with
  | fault v c => rfl
  | unmodelled => rfl
  | ok =>
    simp only [outcomeOf, bind, Except.bind, runUnit, Effect.hitsBlock_eq_storeHits hstores]
    split
    · rfl
    · refine ⟨_, rfl, fun v c h => ?_⟩
      rw [State.commit_lastTag] at h
      rw [h] at hfits
      exact hfits

end Sys2Proof.Machine
end

section
/-! PROOFS. UnitProtocol, third part: the block that is assembled (40_unit_protocol.md R176, R177) and how it ends (R180
to R182). `Assembles` says unit by unit what the assembler makes, `runUnits_ends` at which unit a run of it ends; what
the tag of that unit says of eip comes from `exec_runs` and O31. Settles O21 and O22. -/

namespace Sys2Proof.Machine

open Sys2Proof.Claims

/-! ### The assembler (R176, R177) -/

theorem Instr.kind_eq_terminator_iff (i : Instr) : Instr.kind i = .terminator ↔ isTransfer i = true := by
  have h : isTransfer i = decide (Instr.kind i = .terminator) := by cases i <;> rfl
  rw [h, decide_eq_true_eq]

theorem Instr.kind_of_isHlt {i : Instr} (h : isHlt i = true) : Instr.kind i = .terminator := by
  cases i with
  | hlt => rfl
  | _ => exact absurd h Bool.false_ne_true

/-- What is a unit is no UD2. -/
theorem kind_of_asUnit {d : Except DecodeStop Instr} {i : Instr} (h : asUnit d = .ok i) :
    Instr.kind i ≠ .reserved := by
  intro hk
  cases d with
  | error e => cases h
  | ok j =>
    cases hj : Instr.kind j with
    | reserved => simp [asUnit, hj] at h
    | plain | terminator =>
      have hji : j = i := by simpa [asUnit, hj] using h
      simp [← hji, hj] at hk

/-- The units the assembler makes from an offset on, with room for n: none without room or before bytes that are no
unit; a terminator alone; any other unit with those after it. -/
inductive Assembles (s : State) : Nat → Word → List InsnUnit → Prop
  | full (off : Word) : Assembles s 0 off []
  | stop (n : Nat) {off : Word} {e : DecodeStop} (hd : asUnit (s.decodeAt off) = .error e) : Assembles s n off []
  | last (n : Nat) {off : Word} {i : Instr} (hd : asUnit (s.decodeAt off) = .ok i) (hk : Instr.kind i = .terminator) :
      Assembles s (n + 1) off [⟨off, i⟩]
  | more {n : Nat} {off : Word} {i : Instr} {l : List InsnUnit} (hd : asUnit (s.decodeAt off) = .ok i)
      (hk : Instr.kind i = .plain) (hl : Assembles s n (off + BitVec.ofNat 32 i.len) l) :
      Assembles s (n + 1) off (⟨off, i⟩ :: l)

theorem assembleMore_assembles (s : State) (n : Nat) (off : Word) : Assembles s n off (s.assembleMore n off) := by
  induction n generalizing off with
  | zero => exact .full off
  | succ n ih =>
    rw [State.assembleMore]
    cases hd : asUnit (s.decodeAt off) with
    | error e => exact .stop (n + 1) hd
    | ok i =>
      cases hk : Instr.kind i with
      | terminator => simpa only [hk] using .last n hd hk
      | plain => simpa only [hk] using .more hd hk (ih _)
      | reserved => exact absurd hk (kind_of_asUnit hd)

/-- A block is what the assembler makes from eip on: its first unit always, and the others up to the bound. -/
theorem assemble_assembles {s : State} {u : InsnUnit} {rest : List InsnUnit} (h : s.assemble = .block u rest) :
    Assembles s (s.params.maxBlockLen - 1 + 1) s.eip (u :: rest) := by
  have hmore : s.assembleMore (s.params.maxBlockLen - 1 + 1) s.eip = u :: rest := by
    rw [State.assemble] at h
    rw [State.assembleMore]
    cases hd : asUnit (s.decodeAt s.eip) with
    | error e => cases he : DecodeStop.split e <;> simp [hd, he] at h
    | ok i =>
      rw [hd] at h
      obtain ⟨rfl, rfl⟩ := Assembled.block.inj h
      rfl
  exact hmore ▸ assembleMore_assembles s _ s.eip

namespace Assembles

variable {s : State} {n : Nat} {off : Word} {l : List InsnUnit}

theorem head_start (h : Assembles s n off l) {u : InsnUnit} (hu : l.head? = some u) : u.start = off := by
  cases h <;> simp at hu <;> rw [← hu]

theorem decodes (h : Assembles s n off l) : ∀ w ∈ l, asUnit (s.decodeAt w.start) = .ok w.instr := by
  induction h with
  | full | stop => simp
  | last n hd => simpa using hd
  | more hd _ _ ih => simpa using ⟨hd, ih⟩

theorem length_le (h : Assembles s n off l) : l.length ≤ n := by
  induction h with
  | full | stop => simp
  | last n => simp
  | more _ _ _ ih => simpa using ih

/-- Each unit that another follows is no terminator, and the other starts where it ends. -/
theorem follows (h : Assembles s n off l) : ∀ k w x, l[k]? = some w → l[k + 1]? = some x →
    x.start = w.start + BitVec.ofNat 32 w.instr.len ∧ Instr.kind w.instr = .plain := by
  induction h with
  | full | stop | last => simp
  | more hd hk hl ih =>
    intro k w x hw hx
    cases k with
    | zero =>
      simp at hw hx
      subst hw
      exact ⟨hl.head_start (by rwa [List.head?_eq_getElem?]), hk⟩
    | succ k => exact ih k w x (by simpa using hw) (by simpa using hx)

/-- Nothing is assembled only without room or before bytes that are no unit. -/
theorem of_nil (h : Assembles s n off []) : n = 0 ∨ ∃ e, asUnit (s.decodeAt off) = .error e := by
  cases h with
  | full => exact .inl rfl
  | stop _ hd => exact .inr ⟨_, hd⟩

theorem ends (h : Assembles s n off l) : ∀ w, l.getLast? = some w →
    Instr.kind w.instr = .terminator ∨ l.length = n ∨
      ∃ e, asUnit (s.decodeAt (w.start + BitVec.ofNat 32 w.instr.len)) = .error e := by
  induction h with
  | full | stop => simp
  | last n hd hk => simp [hk]
  | @more n off i l hd hk hl ih =>
    intro w hw
    cases l with
    | nil =>
      simp at hw
      subst hw
      simpa using .inr hl.of_nil
    | cons v l => simpa using ih w (by simpa using hw)

end Assembles

/-- Settles O21: each clause is a fact of what the assembler makes. -/
theorem assembledBlockIsAsSpecified : Obligations.AssembledBlockIsAsSpecified := by
  refine ⟨Instr.kind_eq_terminator_iff, fun s => ?_, fun s u rest hwf hblock => ?_⟩
  · rw [State.assemble]
    cases hd : asUnit (s.decodeAt s.eip) with
    | error e => cases h : DecodeStop.split e <;> simp [h]
    | ok i => simp
  · have hroom : s.params.maxBlockLen - 1 + 1 = s.params.maxBlockLen :=
      Nat.sub_add_cancel (by simpa [Params.wf] using hwf)
    have h := assemble_assembles hblock
    rw [hroom] at h
    exact ⟨h.head_start rfl, h.decodes, h.follows, h.length_le, h.ends⟩

/-! ### How a block ends (R180 to R182) -/

theorem blockEnd_eq_endOf (tag : Tag) : tag.blockEnd = endOf tag := by cases tag <;> rfl

/-- The units completed when the unit after `done` others ends the block with a tag. -/
def completed (done : Nat) : Tag → Nat
  | .trap _ _ => done
  | _ => done + 1

/-- The state a block ends in, whose last unit run left the state `t` (R180). -/
def State.closeBlock (t : State) (done : Nat) : State :=
  { t with block := none, report := some ⟨completed done t.lastTag, t.lastTag.blockEnd⟩ }

/-- A unit that answers a next state ends the block when it traps or is the last. -/
theorem runUnits_of_next {k : Nat} {u : InsnUnit} {rest : List InsnUnit} {s t : State}
    (ht : exec u.instr s = .next t) : runUnits k (u :: rest) s =
      if isTrap t.lastTag.blockEnd = true ∨ rest = [] then t.closeBlock k else runUnits (k + 1) rest t := by
  rw [runUnits, ht]
  cases rest with
  | nil => cases h : t.lastTag <;> simp [State.closeBlock, h, completed, Tag.blockEnd]
  | cons v rest => cases h : t.lastTag <;> simp [State.closeBlock, h, completed, Tag.blockEnd, isTrap]

theorem exec_ne_fault {i : Instr} (hk : Instr.kind i ≠ .reserved) (s : State) (f : Fault) : exec i s ≠ .fault f := by
  obtain ⟨_, body, -, hexec, -⟩ := exec_runs i s hk
  rw [hexec]
  exact runUnit_ne_fault _ _ _ _

/-- A unit that is no terminator and completes without a trap leaves eip past it. -/
theorem eip_of_plain {i : Instr} {s t : State} (ht : exec i s = .next t) (hk : Instr.kind i = .plain)
    (htag : isTrap t.lastTag.blockEnd = false) : t.eip = nextOf i s := by
  have h := tagDecidesEipAndTrapsArePrecise i s t ht (by simp [hk])
  cases htl : t.lastTag with
  | noBranch => simp only [htl] at h; exact h.2
  | jump d => simp [htl, hk] at h
  | cond taken d => cases taken <;> simp [htl, hk] at h
  | halt =>
    simp only [htl] at h
    simp [Instr.kind_of_isHlt h.1] at hk
  | trap v c => simp [htl, Tag.blockEnd, isTrap] at htag

/-- A run of the units `l`, with `k` others done, ends in the state `t`: at a unit that traps or at the last. -/
def EndsAt (k : Nat) (l : List InsnUnit) (t : State) : Prop :=
  ∃ (pre : List InsnUnit) (w : InsnUnit) (post : List InsnUnit) (before after : State), l = pre ++ w :: post ∧
    before.eip = w.start ∧ exec w.instr before = .next after ∧
    (isTrap after.lastTag.blockEnd = true ∨ post = []) ∧ t = after.closeBlock (k + pre.length)

theorem EndsAt.here {k : Nat} {u : InsnUnit} {rest : List InsnUnit} {s t : State} (heip : s.eip = u.start)
    (ht : exec u.instr s = .next t) (hend : isTrap t.lastTag.blockEnd = true ∨ rest = []) :
    EndsAt k (u :: rest) (t.closeBlock k) :=
  ⟨[], u, rest, s, t, rfl, heip, ht, hend, rfl⟩

theorem EndsAt.later {k : Nat} {l : List InsnUnit} {t : State} (u : InsnUnit) (h : EndsAt (k + 1) l t) :
    EndsAt k (u :: l) t := by
  obtain ⟨pre, w, post, before, after, rfl, heip, hexec, hend, rfl⟩ := h
  exact ⟨u :: pre, w, post, before, after, rfl, heip, hexec, hend, by rw [List.length_cons]; congr 1; omega⟩

/-- A run of assembled units from the first of them, not refused, ends at one of them. -/
theorem runUnits_ends {s₀ s : State} {n : Nat} {off : Word} {l : List InsnUnit} (h : Assembles s₀ n off l)
    (hl : l ≠ []) (heip : s.eip = off) {k : Nat} (href : (runUnits k l s).refused = none) :
    EndsAt k l (runUnits k l s) := by
  induction h generalizing s k with
  | full | stop => exact absurd rfl hl
  | @last n off i hd hk =>
    cases ht : exec i s with
    | refused r => simp [runUnits, ht, State.refuse] at href
    | fault f => exact absurd ht (exec_ne_fault (kind_of_asUnit hd) s f)
    | next t =>
      rw [runUnits_of_next ht, if_pos (.inr rfl)]
      exact .here heip ht (.inr rfl)
  | @more n off i l hd hk hl' ih =>
    cases ht : exec i s with
    | refused r => simp [runUnits, ht, State.refuse] at href
    | fault f => exact absurd ht (exec_ne_fault (kind_of_asUnit hd) s f)
    | next t =>
      rw [runUnits_of_next ht] at href ⊢
      split
      · next hend => exact .here heip ht hend
      · next hgo =>
        rw [if_neg hgo] at href
        obtain ⟨htrap, hne⟩ := not_or.mp hgo
        have heip' := eip_of_plain ht hk (Bool.eq_false_iff.mpr htrap)
        exact (ih hne (by rw [heip', nextOf, heip]) href).later _

/-- The index of the unit that ended the block, from the count and the result (R181). -/
theorem index_of_completed (done : Nat) (tag : Tag) :
    (if isTrap tag.blockEnd then completed done tag else completed done tag - 1) = done := by
  cases tag <;> rfl

/-- A unit that completes leaves eip where its tag says (R165). -/
theorem eip_of_completes {i : Instr} {s t : State} (ht : exec i s = .next t) (hk : Instr.kind i ≠ .reserved)
    (htrap : isTrap t.lastTag.blockEnd = false) : t.eip = t.lastTag.eip (nextOf i s) := by
  obtain ⟨_, _, -, hexec, hruns⟩ := exec_runs i s hk
  obtain ⟨v, c, rfl⟩ | ⟨e, -, rfl⟩ := hruns.next (hexec ▸ ht)
  · exact Bool.noConfusion htrap
  · rfl

theorem completed_of_not_trap {tag : Tag} (h : isTrap tag.blockEnd = false) (done : Nat) :
    completed done tag = done + 1 := by
  cases tag with
  | trap v c => exact Bool.noConfusion h
  | _ => rfl

/-- Settles O22: the unit at which the run ends gives the count and the last state, its tag the result and eip. -/
theorem blockResultAndEip : Obligations.BlockResultAndEip := by
  refine ⟨fun s k href htf hfault => ?_, fun s u rest href htf hblock hnot => ?_⟩
  · rw [executeBlock, href, htf, hfault]
    exact ⟨rfl, rfl⟩
  have hrun : executeBlock s = runUnits 0 (u :: rest) (s.enter (u :: rest)) := by
    rw [executeBlock, href, htf, hblock]
    rfl
  have hasm := assemble_assembles hblock
  obtain ⟨pre, w, post, before, after, hl, heip, hexec, hend, hclose⟩ :=
    runUnits_ends hasm (List.cons_ne_nil u rest) (s := s.enter (u :: rest)) rfl (hrun ▸ hnot)
  have hw : (u :: rest)[pre.length]? = some w := by simp [hl]
  have hkind := kind_of_asUnit (hasm.decodes w (List.mem_of_getElem? hw))
  rw [hrun, hclose, Nat.zero_add]
  refine ⟨_, rfl, rfl, blockEnd_eq_endOf _, ⟨w, before, after, ?_, heip, hexec, rfl⟩, fun last hlast => ?_⟩
  · rw [index_of_completed, hw]
  cases htrap : isTrap after.lastTag.blockEnd with
  | true =>
    have hprecise := tagDecidesEipAndTrapsArePrecise w.instr before after hexec hkind
    cases htag : after.lastTag with
    | trap v c =>
      simp only [htag] at hprecise
      exact ⟨w, hw, (congrArg State.eip hprecise).trans heip⟩
    | noBranch | jump | cond | halt => simp [htag, Tag.blockEnd, isTrap] at htrap
  | false =>
    obtain rfl := hend.resolve_left (by simp [htrap])
    obtain rfl : w = last := by simpa [hl] using hlast
    have hcount : completed pre.length after.lastTag = (u :: rest).length := by
      simp [completed_of_not_trap htrap, hl]
    have hgoes := eip_of_completes hexec hkind htrap
    rw [nextOf, heip] at hgoes
    rw [hcount]
    cases htag : after.lastTag with
    | trap v c => simp [htag, Tag.blockEnd, isTrap] at htrap
    | noBranch | jump | halt => exact ⟨rfl, by rw [htag] at hgoes; exact hgoes⟩
    | cond taken d =>
      rw [htag] at hgoes
      cases taken <;> exact ⟨rfl, hgoes⟩

end Sys2Proof.Machine
end

section
/-! PROOFS. Arith: the one-operand rows of 41_arith.md R206 to R208 and NOT (42_logic.md R234), which share `unaryBody`.
`exec_unary_next` takes the body of a row and what its operation computes to the state the row leaves; each operation
has one lemma that gives its result and flags as the rule writes them. Settles O37, O38. -/

namespace Sys2Proof.Machine

open Sys2Proof.Claims

/-! ### The operations of one operand -/

theorem sum_false {n : Nat} (a b : BitVec n) : sum a b false = a + b := by simp [sum]

theorem difference_false {n : Nat} (a b : BitVec n) : difference a b false = a - b := by simp [difference]

theorem aluInc_eq (n : Nat) (f : Flags) (a : BitVec n) :
    aluInc n f a = (a + BitVec.ofNat n 1, { sumFlags a (BitVec.ofNat n 1) false with cf := f.cf }) := by
  rw [aluInc, addResult_eq_sum, addFlags_eq_sumFlags, sum_false]

theorem aluDec_eq (n : Nat) (f : Flags) (a : BitVec n) :
    aluDec n f a = (a - BitVec.ofNat n 1, { differenceFlags a (BitVec.ofNat n 1) false with cf := f.cf }) := by
  rw [aluDec, subResult_eq_difference, subFlags_eq_differenceFlags, difference_false]

/-- The borrow of 0 - a is whether a is not 0 (R208). -/
theorem differenceFlags_zero_cf {n : Nat} (a : BitVec n) : (differenceFlags 0 a false).cf = decide (a ≠ 0) := by
  have hpos : 0 < a.toNat ↔ a ≠ 0 := by simp [Nat.pos_iff_ne_zero, ← BitVec.toNat_inj]
  simp [differenceFlags, hpos]

theorem aluNeg_eq (n : Nat) (f : Flags) (a : BitVec n) :
    aluNeg n f a = (-a, { differenceFlags 0 a false with cf := decide (a ≠ 0) }) := by
  rw [aluNeg, subResult_eq_difference, subFlags_eq_differenceFlags, difference_false, ← differenceFlags_zero_cf]
  exact congrArg (·, _) (BitVec.zero_sub a)

/-! ### Rows by shape (41_arith.md R200) -/

theorem exec_incInstr (p : Prefixes) (f : OneForm) (s : State) :
    exec (incInstr p f) s = runUnit (incInstr p f).len (unaryBody aluInc (f.size p) (f.ref p) s) s := by
  cases f <;> rfl

theorem exec_decInstr (p : Prefixes) (f : OneForm) (s : State) :
    exec (decInstr p f) s = runUnit (decInstr p f).len (unaryBody aluDec (f.size p) (f.ref p) s) s := by
  cases f <;> rfl

theorem exec_negInstr (p : Prefixes) (f : F6Form) (s : State) :
    exec (f6Instr p .neg f) s = runUnit (f6Instr p .neg f).len (unaryBody aluNeg (f.size p) (f.ref p) s) s := by
  cases f <;> rfl

theorem exec_notInstr (p : Prefixes) (f : F6Form) (s : State) :
    exec (f6Instr p .not f) s = runUnit (f6Instr p .not f).len (unaryBody aluNot (f.size p) (f.ref p) s) s := by
  cases f <;> rfl

/-- A one-operand row with its operand readable and writable: it holds the operation's result, the flags are its
flags. -/
theorem exec_unary_next {i : Instr} {op : UnaryOp} {z : Size} {ref : Ref} {s : State}
    (hexec : exec i s = runUnit i.len (unaryBody op z ref s) s)
    (hd : s.readable z ref = true) (hw : s.writable z ref = true) {r : BitVec z.bits} {fl : Flags}
    (hop : op z.bits s.flags (s.operand z ref) = (r, fl)) :
    exec i s = .next (s.advance i { s.withOperand z ref r with flags := fl }) := by
  rw [hexec, unaryBody_next i hd hw, hop]

/-- Settles O37: the sum or difference with one; the operations hand CF through. -/
theorem incAndDecKeepCarry : Obligations.IncAndDecKeepCarry := by
  intro p f s hd hw
  exact ⟨exec_unary_next (exec_incInstr p f s) hd hw (aluInc_eq _ _ _),
    exec_unary_next (exec_decInstr p f s) hd hw (aluDec_eq _ _ _)⟩

/-- Settles O38: NEG's difference from zero; NOT stages the flags it found. -/
theorem negAndNotResult : Obligations.NegAndNotResult := by
  intro p f s hd hw
  refine ⟨exec_unary_next (exec_negInstr p f s) hd hw (aluNeg_eq _ _ _), ?_⟩
  rw [exec_unary_next (exec_notInstr p f s) hd hw rfl, ← s.withOperand_flags]

end Sys2Proof.Machine
end

section
/-! PROOFS. Logic: TEST (42_logic.md R233), whose rows share `compareBody` with CMP's. `exec_testInstr` names that body
once; AND's result and flags are those of `aluAnd_eq`. Settles O40. -/

namespace Sys2Proof.Machine

open Sys2Proof.Claims

/-- The body of every row of TEST. -/
theorem exec_testInstr (p : Prefixes) (f : TestForm) (s : State) :
    exec (testInstr p f) s = runUnit (testInstr p f).len
      (compareBody aluAnd (f.size p) (f.src1 p) (readSource s (f.size p) (f.src2 p)) s) s := by
  cases f with
  | eaxImmz v | rmvImmz _ v =>
    simp only [TestForm.src2, readSource, TestForm.size, ← immz_eq_immValue]
    rfl
  | _ => rfl

/-- Settles O40: the comparison keeps AND's flags and drops its result, so it asks for no write. -/
theorem testResult : Obligations.TestResult := by
  intro p f s hd hs
  rw [exec_testInstr, compareBody_next _ hd (readSource_of_readable hs), aluAnd_eq]

end Sys2Proof.Machine
end

section
/-! PROOFS. Shift: the rows of ROL, ROR, RCL, RCR and SAR (43_shift_rotate.md R250 to R254, R257), which share
`shiftBody`. `exec_shiftInstr` names the body of every row of group 2 once; each operation has one lemma that gives its
value and flags as the rule writes them, the rotations and the arithmetic shift being those of `BitVec`. Settles O41,
O42, O44. -/

namespace Sys2Proof.Machine

open Sys2Proof.Claims

/-! ### Rows by shape (43_shift_rotate.md R250) -/

/-- The operation of a row of group 2. -/
def shiftOpOf : ShiftName → ShiftOp
  | .rol => rol
  | .ror => ror
  | .rcl => rcl
  | .rcr => rcr
  | .shl => shl
  | .shr => shr
  | .sar => sar

/-- The body of every row of group 2; a form by CL counts with CL as the rule reads it. -/
theorem exec_shiftInstr (p : Prefixes) (n : ShiftName) (f : ShiftForm) (s : State) :
    exec (shiftInstr p n f) s = runUnit (shiftInstr p n f).len
      (shiftBody (shiftOpOf n) (f.size p) (f.dst p) (f.count s) s) s := by
  cases f with
  | rm8Cl | rmvCl =>
    rw [ShiftForm.count, ← clCount_eq_clOf]
    cases n <;> rfl
  | _ => cases n <;> rfl

/-- A row whose operation writes nothing: dst is still read, and eip goes past the instruction. -/
theorem exec_shiftInstr_unchanged {p : Prefixes} {n : ShiftName} {f : ShiftForm} {s : State}
    (hd : s.readable (f.size p) (f.dst p) = true)
    (hop : shiftOpOf n s.params (f.size p).bits s.flags s.draws (s.operand (f.size p) (f.dst p)) (f.count s) = none) :
    exec (shiftInstr p n f) s = .next (s.advance (shiftInstr p n f) s) := by
  rw [exec_shiftInstr, shiftBody_none _ hd hop]

/-- A row whose operation writes and draws nothing: dst holds its value, the flags are its flags. -/
theorem exec_shiftInstr_next {p : Prefixes} {n : ShiftName} {f : ShiftForm} {s : State}
    (hd : s.readable (f.size p) (f.dst p) = true) (hw : s.writable (f.size p) (f.dst p) = true)
    {r : BitVec (f.size p).bits} {fl : Flags}
    (hop : shiftOpOf n s.params (f.size p).bits s.flags s.draws (s.operand (f.size p) (f.dst p)) (f.count s) =
      some ⟨r, fl, s.draws⟩) :
    exec (shiftInstr p n f) s = .next (s.advance (shiftInstr p n f)
      { s.withOperand (f.size p) (f.dst p) r with flags := fl }) := by
  rw [exec_shiftInstr, shiftBody_some _ hd hw hop, ← s.withOperand_draws]

/-! ### The operations (R251 to R254, R257) -/

theorem rol_eq (q : Params) {n : Nat} (f : Flags) (d : Nat) (a : BitVec n) {c : Nat} (hm : c % 32 ≠ 0) :
    rol q n f d a c =
      let r := a.rotateLeft (c % 32)
      let cf := r.getLsbD 0
      some ⟨r, rotateFlags cf (if c % 32 = 1 then r.msb ^^ cf else f.of) f, d⟩ :=
  if_neg hm

theorem ror_eq (q : Params) {n : Nat} (f : Flags) (d : Nat) (a : BitVec n) {c : Nat} (hm : c % 32 ≠ 0) :
    ror q n f d a c =
      let r := a.rotateRight (c % 32)
      some ⟨r, rotateFlags r.msb (if c % 32 = 1 then r.msb ^^ r.getLsbD (n - 2) else f.of) f, d⟩ := by
  simp only [BitVec.msb_eq_getLsbD_last]
  exact if_neg hm

/-- The N + 1 bits that RCL and RCR rotate, as a bit vector (R253, R254). -/
theorem withCarry_eq_toNat_cons {n : Nat} (cf : Bool) (a : BitVec n) :
    withCarry cf a = (BitVec.cons cf a).toNat := by
  rw [withCarry, BitVec.toNat_cons', Nat.shiftLeft_eq]

/-- Shifting out of the top and in at the bottom, as R253 writes it, is rotation to the left. -/
theorem rotateLeft_toNat_of_shifts {w : Nat} (t : BitVec w) (m : Nat) :
    (t.toNat <<< (m % w) ||| t.toNat >>> (w - m % w)) % 2 ^ w = (t.rotateLeft (m % w)).toNat := by
  have hlow : t.toNat >>> (w - m % w) < 2 ^ w := (Nat.shiftRight_le _ _).trans_lt t.isLt
  rw [BitVec.toNat_rotateLeft, Nat.or_mod_two_pow, Nat.mod_mod, Nat.mod_eq_of_lt hlow]

/-- Shifting out of the bottom and in at the top, as R254 writes it, is rotation to the right. -/
theorem rotateRight_toNat_of_shifts {w : Nat} (t : BitVec w) (m : Nat) :
    (t.toNat >>> (m % w) ||| t.toNat <<< (w - m % w)) % 2 ^ w = (t.rotateRight (m % w)).toNat := by
  have hlow : t.toNat >>> (m % w) < 2 ^ w := (Nat.shiftRight_le _ _).trans_lt t.isLt
  rw [BitVec.toNat_rotateRight, Nat.or_mod_two_pow, Nat.mod_mod, Nat.mod_eq_of_lt hlow]

theorem rcl_eq (q : Params) {n : Nat} (f : Flags) (d : Nat) (a : BitVec n) {c : Nat}
    (hk : maskCarryCount q c % (n + 1) ≠ 0) :
    rcl q n f d a c =
      let u := (BitVec.cons f.cf a).rotateLeft (maskCarryCount q c % (n + 1))
      let r := u.setWidth n
      some ⟨r, rotateFlags u.msb (if maskCarryCount q c = 1 then r.msb ^^ u.msb else f.of) f, d⟩ := by
  simp only [rcl, if_neg hk, withCarry_eq_toNat_cons, rotateLeft_toNat_of_shifts, BitVec.ofNat_toNat,
    BitVec.testBit_toNat, BitVec.msb_eq_getLsbD_last, Nat.add_sub_cancel]
  rfl

theorem rcr_eq (q : Params) {n : Nat} (f : Flags) (d : Nat) (a : BitVec n) {c : Nat}
    (hk : maskCarryCount q c % (n + 1) ≠ 0) :
    rcr q n f d a c =
      let u := (BitVec.cons f.cf a).rotateRight (maskCarryCount q c % (n + 1))
      let r := u.setWidth n
      some ⟨r, rotateFlags u.msb
        (if maskCarryCount q c = 1 then r.msb ^^ r.getLsbD (n - 2) else f.of) f, d⟩ := by
  simp only [rcr, if_neg hk, withCarry_eq_toNat_cons, rotateRight_toNat_of_shifts, BitVec.ofNat_toNat,
    BitVec.testBit_toNat, BitVec.msb_eq_getLsbD_last, Nat.add_sub_cancel]
  rfl

/-- Floor division by 2^m is the arithmetic shift (R257). -/
theorem ofInt_div_two_pow_eq_sshiftRight {n : Nat} (a : BitVec n) (m : Nat) :
    BitVec.ofInt n (a.toInt / 2 ^ m) = a.sshiftRight m := by
  rw [BitVec.sshiftRight, Int.shiftRight_eq_div_pow, Nat.cast_pow, Nat.cast_ofNat]

theorem sar_eq (q : Params) {n : Nat} (f : Flags) (d : Nat) (a : BitVec n) {c : Nat} (hm : c % 32 ≠ 0) :
    sar q n f d a c = some ⟨a.sshiftRight (c % 32), shiftFlags (a.sshiftRight (c % 32))
      (if c % 32 ≤ n then a.getLsbD (c % 32 - 1) else a.msb) (if c % 32 = 1 then false else f.of) f, d⟩ := by
  refine (if_neg hm).trans ?_
  simp only [ofInt_div_two_pow_eq_sshiftRight, szp_eq]
  rfl

/-! ### The obligations -/

/-- Settles O41: the two shifts the rules join are one rotation. -/
theorem rolAndRorResult : Obligations.RolAndRorResult := by
  intro p f s hd
  refine ⟨fun hm => ⟨?_, ?_⟩, fun hm hw => ⟨?_, ?_⟩⟩
  · exact exec_shiftInstr_unchanged (n := .rol) hd ((rol_eq_none s.params _ _ _ _ _).mpr hm)
  · exact exec_shiftInstr_unchanged (n := .ror) hd ((ror_eq_none s.params _ _ _ _ _).mpr hm)
  · exact exec_shiftInstr_next (n := .rol) hd hw (rol_eq s.params _ _ _ hm)
  · exact exec_shiftInstr_next (n := .ror) hd hw (ror_eq s.params _ _ _ hm)

/-- Settles O42: the rotation of CF and dst as one vector of N + 1 bits. -/
theorem rclAndRcrResult : Obligations.RclAndRcrResult := by
  intro p f s hd
  refine ⟨fun hk => ⟨?_, ?_⟩, fun hk hw => ⟨?_, ?_⟩⟩
  · exact exec_shiftInstr_unchanged (n := .rcl) hd ((rcl_eq_none s.params _ _ _ _ _).mpr hk)
  · exact exec_shiftInstr_unchanged (n := .rcr) hd ((rcr_eq_none s.params _ _ _ _ _).mpr hk)
  · exact exec_shiftInstr_next (n := .rcl) hd hw (rcl_eq s.params _ _ _ hk)
  · exact exec_shiftInstr_next (n := .rcr) hd hw (rcr_eq s.params _ _ _ hk)

/-- Settles O44: floor division is the arithmetic shift, below the width and beyond it. -/
theorem sarResult : Obligations.SarResult := by
  intro p f s hd
  exact ⟨fun hm => exec_shiftInstr_unchanged (n := .sar) hd ((sar_eq_none s.params _ _ _ _ _).mpr hm),
    fun hm hw => exec_shiftInstr_next (n := .sar) hd hw (sar_eq s.params _ _ _ hm)⟩

end Sys2Proof.Machine
end

section
/-! PROOFS. MulDiv: DIV and IDIV (44_muldiv.md R285, R286), whose rows share `divBody` and `idivBody`, and CBW, CWDE,
CWD and CDQ (R287, R288). Each body is said once as the rule writes it: `divBody_eq` and `idivBody_eq` decide by
`divFails` and `idivFails`, and `exec_of_division` takes that to the state the row leaves. Settles O47, O48. -/

namespace Sys2Proof.Machine

open Sys2Proof.Claims

/-! ### The bodies of DIV and IDIV (R285, R286) -/

theorem setQuotRem_eq_quotientGpr (g : Gprs) (z : Size) (q r : Int) :
    g.setQuotRem z q r = quotientGpr g z (BitVec.ofInt z.bits q) (BitVec.ofInt z.bits r) := by
  cases z <;> rfl

/-- The rule's subtraction is the truncated remainder. -/
theorem signedRemainder_eq_sub (s : State) (z : Size) (src : Ref) : signedRemainder s z src =
    s.gpr.signedDividend z -
      Int.tdiv (s.gpr.signedDividend z) (s.operand z src).toInt * (s.operand z src).toInt := by
  rw [signedRemainder, toInt_dividend, Int.tmod_def, Int.mul_comm]

theorem divBody_eq {z : Size} {src : Ref} {s : State} (hr : s.readable z src = true) :
    divBody z src s = if divFails s z src = true then .error (.trap 0 none) else
      .ok { Effect.start s with
        gpr := quotientGpr s.gpr z
          (BitVec.ofNat z.bits ((dividend s.gpr z).toNat / (s.operand z src).toNat))
          (BitVec.ofNat z.bits ((dividend s.gpr z).toNat % (s.operand z src).toNat)) } := by
  simp only [divBody, State.readRef_of_readable hr, bind, Except.bind, ← ite_or, divFails_iff, toNat_dividend,
    setQuotRem_eq_quotientGpr, BitVec.ofInt_natCast]

theorem idivBody_eq {z : Size} {src : Ref} {s : State} (hr : s.readable z src = true) :
    idivBody z src s = if idivFails s z src = true then .error (.trap 0 none) else
      .ok { Effect.start s with
        gpr := quotientGpr s.gpr z (BitVec.ofInt z.bits (signedQuotient s z src))
          (BitVec.ofInt z.bits (signedRemainder s z src)) } := by
  simp only [idivBody, State.readRef_of_readable hr, bind, Except.bind, ← ite_or, idivFails_iff,
    signedRemainder_eq_sub, signedQuotient, toInt_dividend, setQuotRem_eq_quotientGpr]

/-! ### Rows by shape (R285, R286) -/

theorem exec_divInstr (p : Prefixes) (f : F6Form) (s : State) :
    exec (f6Instr p .div f) s = runUnit (f6Instr p .div f).len (divBody (f.size p) (f.ref p) s) s := by
  cases f <;> rfl

theorem exec_idivInstr (p : Prefixes) (f : F6Form) (s : State) :
    exec (f6Instr p .idiv f) s = runUnit (f6Instr p .idiv f).len (idivBody (f.size p) (f.ref p) s) s := by
  cases f <;> rfl

/-- A row whose body stages registers alone leaves them and goes past the instruction. -/
theorem exec_of_regs {i : Instr} {s : State} {body : Except Stop Effect} {g : Gprs}
    (hexec : exec i s = runUnit i.len body s) (hbody : body = .ok { Effect.start s with gpr := g }) :
    exec i s = .next (s.advance i { s with gpr := g }) := by
  rw [hexec, hbody]
  exact runUnit_regs i s g s.flags s.draws

/-- A row whose body raises #DE where `fails`, and else stages registers alone: the one changes the tag and nothing
else, the other writes the registers and goes past the instruction. -/
theorem exec_of_division {i : Instr} {s : State} {body : Except Stop Effect} {fails : Bool} {g : Gprs}
    (hexec : exec i s = runUnit i.len body s)
    (hbody : body = if fails = true then .error (.trap 0 none) else .ok { Effect.start s with gpr := g }) :
    (fails = false → exec i s = .next (s.advance i { s with gpr := g })) ∧
    (fails = true → exec i s = .next { s with lastTag := .trap 0 none }) := by
  constructor
  · rintro rfl
    exact exec_of_regs hexec hbody
  · rintro rfl
    exact hexec.trans (runUnit_of_trap hbody)

/-- Settles O47: both divisions fail and succeed by the rule's conditions on the dividend, high half over low. -/
theorem divideResultOrError : Obligations.DivideResultOrError := by
  intro p f s hr
  obtain ⟨hdiv, hdivError⟩ := exec_of_division (exec_divInstr p f s) (divBody_eq hr)
  obtain ⟨hidiv, hidivError⟩ := exec_of_division (exec_idivInstr p f s) (idivBody_eq hr)
  exact ⟨hdiv, hidiv, hdivError, hidivError⟩

/-! ### The sign of the accumulator (R287, R288) -/

/-- Every bit that is left when all but the sign bit are shifted out is the sign bit. -/
theorem getLsbD_sshiftRight_sub_one {n i : Nat} (x : BitVec n) (hi : i < n) :
    (x.sshiftRight (n - 1)).getLsbD i = x.msb := by
  rw [BitVec.getLsbD_sshiftRight, decide_eq_false hi.not_ge, Bool.not_false, Bool.true_and, BitVec.msb_eq_getLsbD_last]
  split
  · next h =>
    obtain rfl : i = 0 := by omega
    rfl
  · rfl

/-- The shift is the fill that R288 writes: all ones or all zeros, by the sign bit. -/
theorem sshiftRight_sub_one_eq_ite {n : Nat} (x : BitVec n) :
    x.sshiftRight (n - 1) = if x.msb then BitVec.allOnes n else 0#n := by
  apply BitVec.eq_of_getLsbD_eq
  intro i hi
  rw [getLsbD_sshiftRight_sub_one x hi]
  cases x.msb with
  | false => simp
  | true => simp [hi]

theorem cbwBody_w16 (s : State) : cbwBody .w16 s = .ok { Effect.start s with
    gpr := s.gpr.setView .s16 .eax (BitVec.ofInt 16 (s.gpr.view .s8 .eax).toInt) } := rfl

theorem cbwBody_w32 (s : State) : cbwBody .w32 s = .ok { Effect.start s with
    gpr := s.gpr.setView .s32 .eax (BitVec.ofInt 32 (s.gpr.view .s16 .eax).toInt) } := rfl

theorem cwdBody_eq (z : OpSize) (s : State) : cwdBody z s = .ok { Effect.start s with
    gpr := s.gpr.setView z.size .edx ((s.gpr.view z.size .eax).sshiftRight (z.size.bits - 1)) } := by
  rw [sshiftRight_sub_one_eq_ite]
  cases z <;> rfl

/-- Settles O48: the extension is the value at the wider width, the fill is the sign bit shifted through. -/
theorem signExtensionOfTheAccumulator : Obligations.SignExtensionOfTheAccumulator := by
  intro p s
  have cbw : exec (.cbwCwde p) s = runUnit (Instr.cbwCwde p).len (cbwBody p.opSize s) s := rfl
  have cwd : exec (.cwdCdq p) s = runUnit (Instr.cwdCdq p).len (cwdBody p.opSize s) s := rfl
  constructor
  · intro hz
    rw [hz] at cbw cwd
    exact ⟨exec_of_regs cbw (cbwBody_w16 s), exec_of_regs cwd (cwdBody_eq .w16 s)⟩
  · intro hz
    rw [hz] at cbw cwd
    exact ⟨exec_of_regs cbw (cbwBody_w32 s), exec_of_regs cwd (cwdBody_eq .w32 s)⟩

end Sys2Proof.Machine
end

section
/-! PROOFS. DataMove: the rows of 45_data_move.md. Each shape of rows has one lemma that names its body and one that
takes that body to the state it leaves; what a push or a pop stages is said in the rules' formulas of the stack pointer
(R318). Settles O49, O50, O51, O52, O53, O54. -/

namespace Sys2Proof.Machine

open Sys2Proof.Claims

/-! ### MOV and SETcc (R300 to R303, R323) -/

/-- The body of every row of MOV. -/
theorem exec_movInstr (p : Prefixes) (f : MovForm) (s : State) :
    exec (movInstr p f) s = runUnit (movInstr p f).len
      (moveBody (f.size p) (f.dst p) (readSource s (f.size p) (f.src p)) s) s := by
  cases f with
  | rvImmz _ v | rmvImmz _ v =>
    simp only [MovForm.src, readSource, MovForm.size, ← immz_eq_immValue]
    rfl
  | _ => rfl

/-- Settles O49: every row moves the source, an operand or an immediate, into dst. -/
theorem movResult : Obligations.MovResult := by
  intro p f s hs hw
  rw [exec_movInstr, moveBody_next _ (readSource_of_readable hs) hw]

/-- The byte SETcc writes is 1 or 0 by the table of conditions (R323, R334). -/
theorem condByte_eq_ite_condition (cc : Cond) (f : Flags) :
    condByte f cc = if condition cc f then 1#8 else 0#8 := by
  rw [condByte, holds_eq_condition]
  rfl

/-- Settles O52: the condition's byte is moved into the operand. -/
theorem setccResult : Obligations.SetccResult := by
  intro p cc ext rm s hw
  exact moveBody_next (z := .s8) (.setccRm8 p cc ext rm)
    (congrArg Except.ok (condByte_eq_ite_condition cc s.flags)) hw

/-! ### LEA, MOVZX, MOVSX (R304 to R306) -/

theorem Size.bits_le_32 (z : Size) : z.bits ≤ 32 := by cases z <;> decide

/-- To extend with zeros to 32 bits and truncate is to take the value at the narrower width (R305). -/
theorem setWidth_setWidth_bits {n : Nat} (z : Size) (v : BitVec n) :
    (v.setWidth 32).setWidth z.bits = BitVec.ofNat z.bits v.toNat := by
  rw [BitVec.setWidth_setWidth_of_le v (Size.bits_le_32 z), BitVec.ofNat_toNat]

/-- To extend with the sign and truncate is to extend to the narrower width. -/
theorem setWidth_signExtend_of_le {n k m : Nat} (v : BitVec n) (h : k ≤ m) :
    (v.signExtend m).setWidth k = v.signExtend k := by
  apply BitVec.eq_of_getLsbD_eq
  intro i hi
  simp only [BitVec.getLsbD_setWidth, BitVec.getLsbD_signExtend, hi, hi.trans_le h, decide_true, Bool.true_and]

/-- To extend with the sign to 32 bits and truncate is to take the signed value at the narrower width (R306). -/
theorem setWidth_signExtend_bits {n : Nat} (z : Size) (v : BitVec n) :
    (v.signExtend 32).setWidth z.bits = BitVec.ofInt z.bits v.toInt :=
  setWidth_signExtend_of_le v (Size.bits_le_32 z)

theorem leaBody_eq (z : Size) (dst : Reg) (ea : EA) (s : State) : leaBody z dst ea s = .ok { Effect.start s with
    gpr := s.gpr.setView z dst (BitVec.ofNat z.bits (ea.off s.gpr).toNat) } := by
  rw [leaBody, BitVec.ofNat_toNat]

theorem movzxBody_eq {z from_ : Size} (dst : Reg) {src : Ref} {s : State} (hr : s.readable from_ src = true) :
    movzxBody z dst from_ src s = .ok { Effect.start s with
      gpr := s.gpr.setView z dst (BitVec.ofNat z.bits (s.operand from_ src).toNat) } := by
  rw [movzxBody, State.readRef_of_readable hr, ← setWidth_setWidth_bits]
  rfl

theorem movsxBody_eq {z from_ : Size} (dst : Reg) {src : Ref} {s : State} (hr : s.readable from_ src = true) :
    movsxBody z dst from_ src s = .ok { Effect.start s with
      gpr := s.gpr.setView z dst (BitVec.ofInt z.bits (s.operand from_ src).toInt) } := by
  rw [movsxBody, State.readRef_of_readable hr, ← setWidth_signExtend_bits]
  rfl

/-- Settles O50: LEA asks no check; the two extensions, through 32 bits, are the operand's value at the width of OS. -/
theorem leaAndExtendingMovesResult : Obligations.LeaAndExtendingMovesResult := by
  intro p reg s
  refine ⟨fun m => ?_, fun rm hr => ⟨?_, ?_⟩, fun rm hr => ⟨?_, ?_⟩⟩
  · exact exec_of_regs rfl (leaBody_eq _ reg _ s)
  · exact exec_of_regs rfl (movzxBody_eq reg hr)
  · exact exec_of_regs rfl (movsxBody_eq reg hr)
  · exact exec_of_regs rfl (movzxBody_eq reg hr)
  · exact exec_of_regs rfl (movsxBody_eq reg hr)

/-! ### XCHG (R307, R308) -/

/-- The body of every row of XCHG. -/
theorem exec_xchgInstr (p : Prefixes) (f : XchgForm) (s : State) :
    exec (xchgInstr p f) s = runUnit (xchgInstr p f).len (xchgBody (f.size p) (f.op1 p) f.op2 s) s := by
  cases f <;> rfl

/-- Both operands are read first; then the first is written, and the register over it. -/
theorem xchgBody_eq {z : Size} {op1 : Ref} (op2 : Reg) {s : State} (hr : s.readable z op1 = true)
    (hw : s.writable z op1 = true) : xchgBody z op1 op2 s =
      .ok (Effect.put s z (.reg op2) (s.operand z op1) (Effect.put s z op1 (s.gpr.view z op2) (Effect.start s))) := by
  rw [xchgBody, State.readRef_of_readable hr, State.readRef_reg]
  exact congrArg (· >>= s.writeRef z (.reg op2) (s.operand z op1)) (State.writeRef_of_writable _ _ hw)

theorem xchgBody_next {z : Size} {op1 : Ref} {op2 : Reg} {s : State} (i : Instr) (hr : s.readable z op1 = true)
    (hw : s.writable z op1 = true) : runUnit i.len (xchgBody z op1 op2 s) s = .next (s.advance i
      ((s.withOperand z op1 (s.gpr.view z op2)).withOperand z (.reg op2) (s.operand z op1))) := by
  -- The register written last is no store, so the block meets at most what `op1` stores.
  have hclear : (Effect.put s z op1 (s.gpr.view z op2) (Effect.start s)).hitsBlock s = false :=
    Effect.put_hitsBlock _ hw rfl
  rw [runUnit_of_ok (xchgBody_eq op2 hr hw) hclear]
  cases op1 <;> rfl

/-- Settles O51: each operand gets what the other held when the unit began. -/
theorem xchgResult : Obligations.XchgResult := by
  intro p f s hr hw
  rw [exec_xchgInstr, xchgBody_next _ hr hw]

/-! ### The stack pointer (R318) -/

/-- ESP, or SP alone, staged over the registers the unit began with. -/
theorem setSp_gpr_eq_withSp {s : State} {e : Effect} (t : Word) (h : e.gpr = s.gpr) :
    (s.setSp t e).gpr = withSp s t := by
  simp only [State.setSp, withSp, stackWide_eq, h, BitVec.setWidth_eq_extractLsb' (show 16 ≤ 32 by decide)]
  rfl

theorem popSp_eq_spPlus (s : State) (n k : Nat) : s.popSp n k = spPlus s (n + k) := by
  simp only [State.popSp, State.truncSp, spPlus, State.sp, stackWide_eq]
  split
  · rfl
  · congr 1
    apply BitVec.eq_of_toNat_eq
    simp

/-! ### PUSH (R319 to R321) -/

/-- The body of every row of PUSH. -/
theorem exec_pushInstr (p : Prefixes) (f : PushForm) (s : State) :
    exec (pushInstr p f) s = runUnit (pushInstr p f).len
      (pushBody p.opSize.size (readSource s p.opSize.size (f.src p)) s) s := by
  cases f with
  | immz v =>
    simp only [PushForm.src, readSource, ← immz_eq_immValue]
    rfl
  | _ => rfl

/-- What a unit has staged that has pushed a value and nothing else (R318). -/
def Effect.pushed (s : State) (z : Size) (v : BitVec z.bits) : Effect :=
  { Effect.start s with
    gpr := withSp s (spMinus s z.bytes)
    store := some ⟨s.lin .ss (spMinus s z.bytes), leBytes z.bytes v.toNat⟩ }

theorem State.push_start_eq_pushed {s : State} {z : Size} (v : BitVec z.bits) (h : s.canPush z = true) :
    s.push z v (Effect.start s) = .ok (Effect.pushed s z v) := by
  rw [State.push_of_canPush v _ h, Effect.pushed, ← pushSp_eq_spMinus,
    ← setSp_gpr_eq_withSp (e := Effect.start s) _ rfl]
  rfl

theorem Effect.pushed_hitsBlock {s : State} {z : Size} (v : BitVec z.bits) (h : s.canPush z = true) :
    (Effect.pushed s z v).hitsBlock s = false := by
  have hclear := State.push_hitsBlock v (Effect.start s) (s.pushSp z.bytes) h
  rw [pushSp_eq_spMinus] at hclear
  exact hclear

theorem pushBody_next {z : Size} {src : Except Stop (BitVec z.bits)} {s : State} {v : BitVec z.bits} (i : Instr)
    (hs : src = .ok v) (h : s.canPush z = true) :
    runUnit i.len (pushBody z src s) s = .next (s.advance i (pushed s z v)) := by
  have hbody : pushBody z src s = s.push z v (Effect.start s) := by rw [hs]; rfl
  rw [hbody, runUnit_of_ok (State.push_start_eq_pushed v h) (Effect.pushed_hitsBlock v h)]
  rfl

/-- Settles O53: the source is read with the registers before the push, so PUSH ESP stores what ESP held. -/
theorem pushResult : Obligations.PushResult := by
  intro p f s hs h
  rw [exec_pushInstr, pushBody_next _ (readSource_of_readable hs) h]

/-! ### POP (R322) -/

theorem top_eq_leValue (s : State) (z : Size) :
    s.top z = BitVec.ofNat z.bits (leValue (Memory.readBytes s.mem (s.lin .ss (spOf s)) z.bytes)) := by
  rw [State.top, sp_eq_spOf]

/-- The value popped is written over the stack pointer, which is staged first. -/
theorem popBody_eq {z : Size} (dst : Reg) {s : State} (h : s.canPop z = true) :
    popBody z dst s = .ok { Effect.start s with gpr := (withSp s (spPlus s z.bytes)).setView z dst (s.top z) } := by
  rw [popBody, State.popRead_of_canPop h, popSp_eq_spPlus, ← setSp_gpr_eq_withSp (e := Effect.start s) _ rfl]
  rfl

/-- Settles O54: the register is written after the stack pointer, so POP ESP holds the value popped. -/
theorem popResult : Obligations.PopResult := by
  intro p r s h
  simp only [← top_eq_leValue]
  exact exec_of_regs rfl (popBody_eq r h)

end Sys2Proof.Machine
end

section
/-! PROOFS. Control: the rows of 46_control.md. A transfer that stores nothing leaves the registers and the tag it
stages, with eip where the tag sends it; CALL leaves a push besides. Each shape of rows has one lemma that takes its
body, the target in the rules' formulas (R332), to that effect. Settles O55, O56, O57, O58. -/

namespace Sys2Proof.Machine

open Sys2Proof.Claims

/-! ### A unit that completes with a tag (R331, R333) -/

theorem State.checkTarget_of_canBranch {s : State} {t : Word} (h : s.canBranch t = true) : s.checkTarget t = .ok () :=
  (s.checkTarget_ok_iff t).mpr h

/-- A unit that stages registers and a tag alone leaves both, and eip where the tag sends it. -/
theorem exec_of_regs_tag {i : Instr} {s : State} {body : Except Stop Effect} {g : Gprs} {tag : Tag}
    (hexec : exec i s = runUnit i.len body s) (hbody : body = .ok { Effect.start s with gpr := g, tag := tag }) :
    exec i s = .next { s with gpr := g, eip := tag.eip (nextOf i s), lastTag := tag } := by
  rw [hexec, hbody]
  rfl

/-! ### Jcc (R334 to R336) -/

theorem jccBody_taken {cc : Cond} {t : Word} {s : State} (hc : condition cc s.flags = true)
    (hb : s.canBranch t = true) : jccBody cc t s = .ok { Effect.start s with tag := .cond true t } := by
  rw [jccBody, holds_eq_condition, if_pos hc, State.checkTarget_of_canBranch hb]
  rfl

/-- A branch not taken asks nothing about its target. -/
theorem jccBody_not_taken {cc : Cond} (t : Word) {s : State} (hc : condition cc s.flags = false) :
    jccBody cc t s = .ok { Effect.start s with tag := .cond false t } := by
  rw [jccBody, holds_eq_condition, hc]
  rfl

/-- Every row of Jcc, taken and not taken. -/
theorem exec_of_jccBody {i : Instr} {p : Prefixes} {cc : Cond} {s : State} {rel : Word}
    (hexec : exec i s = runUnit i.len (jccBody cc (s.relTarget p i.len rel) s) s) :
    (condition cc s.flags = true → s.canBranch (target p (nextOf i s + rel)) = true →
      exec i s = .next { s with
        eip := target p (nextOf i s + rel), lastTag := .cond true (target p (nextOf i s + rel)) }) ∧
    (condition cc s.flags = false → exec i s = .next { s with
        eip := nextOf i s, lastTag := .cond false (target p (nextOf i s + rel)) }) := by
  rw [relTarget_eq] at hexec
  constructor
  · intro hc hb
    exact exec_of_regs_tag hexec (jccBody_taken hc hb)
  · intro hc
    exact exec_of_regs_tag hexec (jccBody_not_taken _ hc)

/-- Settles O55: the two forms differ only in the width their displacement is extended from. -/
theorem jccResult : Obligations.JccResult := by
  intro p cc s
  exact ⟨fun rel => exec_of_jccBody rfl, fun v => exec_of_jccBody rfl, fun v => exec_of_jccBody rfl⟩

/-! ### JMP (R337, R338, R342) -/

theorem jmpBody_eq {t : Word} {s : State} (hb : s.canBranch t = true) :
    jmpBody t s = .ok { Effect.start s with tag := .jump t } := by
  rw [jmpBody, State.checkTarget_of_canBranch hb]
  rfl

/-- The operand is read, and what it holds is the target. -/
theorem jmpRefBody_eq_jmpBody {p : Prefixes} {src : Ref} {s : State} (hr : s.readable p.opSize.size src = true) :
    jmpRefBody p src s = jmpBody (indirectTarget p (s.operand p.opSize.size src)) s := by
  rw [jmpRefBody, State.readRef_of_readable hr]
  rfl

/-- Every row of JMP, its target named as the claims name it. -/
theorem exec_of_jmpBody {i : Instr} {s : State} {t t' : Word} (hexec : exec i s = runUnit i.len (jmpBody t s) s)
    (ht : t = t') (hb : s.canBranch t' = true) : exec i s = .next { s with eip := t', lastTag := .jump t' } := by
  rw [ht] at hexec
  exact exec_of_regs_tag hexec (jmpBody_eq hb)

/-- Settles O56: the relative rows by their displacement, the indirect row by what its operand holds. -/
theorem jmpResult : Obligations.JmpResult := by
  intro p s
  refine ⟨fun rel => ?_, fun v => ?_, fun v => ?_, fun rm hr => ?_⟩
  · exact exec_of_jmpBody rfl (relTarget_eq p _ s _)
  · exact exec_of_jmpBody rfl (relTarget_eq p _ s _)
  · exact exec_of_jmpBody rfl (relTarget_eq p _ s _)
  · exact exec_of_jmpBody (congrArg (runUnit _ · s) (jmpRefBody_eq_jmpBody hr)) (indirectTarget_eq p _)

/-! ### CALL (R339, R345) -/

/-- The target passes its check, then the return address is staged in the stack. -/
theorem callBody_eq {p : Prefixes} {t : Word} {s : State} (len : Nat) (hb : s.canBranch t = true)
    (h : s.canPush p.opSize.size = true) : callBody p len t s =
      .ok { Effect.pushed s p.opSize.size ((s.nextEip len).setWidth p.opSize.size.bits) with tag := .jump t } := by
  rw [callBody, State.checkTarget_of_canBranch hb, State.push_start_eq_pushed _ h]
  rfl

/-- The operand is read with the registers before the push, and what it holds is the target. -/
theorem callRefBody_eq_callBody {p : Prefixes} {src : Ref} {s : State} (len : Nat)
    (hr : s.readable p.opSize.size src = true) :
    callRefBody p len src s = callBody p len (indirectTarget p (s.operand p.opSize.size src)) s := by
  rw [callRefBody, State.readRef_of_readable hr]
  rfl

/-- Every row of CALL, its target named as the claims name it. -/
theorem exec_of_callBody {i : Instr} {p : Prefixes} {s : State} {t t' : Word}
    (hexec : exec i s = runUnit i.len (callBody p i.len t s) s) (ht : t = t') (h : s.canPush p.opSize.size = true)
    (hb : s.canBranch t' = true) :
    exec i s = .next { pushed s p.opSize.size ((nextOf i s).setWidth p.opSize.size.bits) with
      eip := t', lastTag := .jump t' } := by
  -- The tag is no part of what meets the running block.
  have hclear : ({ Effect.pushed s p.opSize.size ((s.nextEip i.len).setWidth p.opSize.size.bits) with
      tag := .jump t' } : Effect).hitsBlock s = false := Effect.pushed_hitsBlock _ h
  rw [hexec, ht, runUnit_of_ok (callBody_eq _ hb h) hclear]
  rfl

/-- Settles O57: the relative row by its displacement, the indirect row by what its operand held before the push. -/
theorem callResult : Obligations.CallResult := by
  intro p s h
  refine ⟨fun v => ?_, fun v => ?_, fun rm hr => ?_⟩
  · exact exec_of_callBody rfl (relTarget_eq p _ s _) h
  · exact exec_of_callBody rfl (relTarget_eq p _ s _) h
  · exact exec_of_callBody (congrArg (runUnit _ · s) (callRefBody_eq_callBody _ hr)) (indirectTarget_eq p _) h

/-! ### RET (R340, R341) -/

/-- The top of the stack is the target; the stack pointer goes up past it and the k bytes released. -/
theorem retBody_eq {p : Prefixes} {s : State} (k : Nat) (h : s.canPop p.opSize.size = true)
    (hb : s.canBranch (returned p s) = true) : retBody p k s = .ok { Effect.start s with
      gpr := withSp s (spPlus s (p.opSize.size.bytes + k)), tag := .jump (returned p s) } := by
  have hbody : retBody p k s = (s.checkTarget (returned p s) >>= fun _ => .ok
      { s.setSp (s.popSp p.opSize.size.bytes k) (Effect.start s) with tag := .jump (returned p s) }) := by
    rw [retBody, State.popRead_of_canPop h, returned, ← indirectTarget_eq]
    rfl
  rw [hbody, State.checkTarget_of_canBranch hb, ← popSp_eq_spPlus, ← setSp_gpr_eq_withSp (e := Effect.start s) _ rfl]
  rfl

/-- Settles O58: RET is the row that releases no bytes. -/
theorem retResult : Obligations.RetResult := by
  intro p s h hb
  exact ⟨exec_of_regs_tag rfl (retBody_eq 0 h hb), fun v => exec_of_regs_tag rfl (retBody_eq v.toNat h hb)⟩

end Sys2Proof.Machine
end

section
/-! PROOFS. Misc: the rows of 47_flag_misc.md. CLC, STC and CMC share `flagBody` and stage the flags alone; HLT's body
is said once per outcome. Settles O59, O60. -/

namespace Sys2Proof.Machine

open Sys2Proof.Claims

/-! ### CLC, STC, CMC and NOP (R360 to R363) -/

/-- A row whose body stages flags alone leaves them and goes past the instruction. -/
theorem exec_of_flagBody {i : Instr} {s : State} {f : Flags} (hexec : exec i s = runUnit i.len (flagBody f s) s) :
    exec i s = .next (s.advance i { s with flags := f }) :=
  hexec.trans (runUnit_regs i s s.gpr f s.draws)

/-- Settles O59: three rows stage the flags with CF replaced, NOP the registers and flags as they stand. -/
theorem carryFlagInstructionsAndNop : Obligations.CarryFlagInstructionsAndNop := by
  intro p s
  have nop : exec (.nop p) s = runUnit (Instr.nop p).len (.ok (Effect.start s)) s := rfl
  exact ⟨exec_of_flagBody rfl, exec_of_flagBody rfl, exec_of_flagBody rfl, exec_of_regs nop rfl⟩

/-! ### HLT (R364) -/

/-- At privilege level 0, which Real mode always has, HLT stages its tag alone. -/
theorem hltBody_of_level_zero {s : State} (h : s.mode = .real ∨ (s.mode = .prot ∧ s.cpl = 0)) :
    hltBody s = .ok { Effect.start s with tag := .halt } := by
  have hlevel : ¬(s.mode = .v86 ∨ (s.mode = .prot ∧ s.cpl ≠ 0)) := by
    obtain hreal | ⟨hprot, hcpl⟩ := h
    · simp [hreal]
    · simp [hprot, hcpl]
  exact if_neg hlevel

/-- Elsewhere it is #GP(0). -/
theorem hltBody_of_not_level_zero {s : State} (h : s.mode = .v86 ∨ (s.mode = .prot ∧ s.cpl ≠ 0)) :
    hltBody s = .error (.trap 13 (some 0)) := if_pos h

/-- Settles O60: the halt commits its tag, the trap commits nothing. -/
theorem hltHaltsOrIsPrivileged : Obligations.HltHaltsOrIsPrivileged := by
  intro p s
  have hexec : exec (.hlt p) s = runUnit (Instr.hlt p).len (hltBody s) s := rfl
  constructor
  · intro h
    exact exec_of_regs_tag hexec (hltBody_of_level_zero h)
  · intro h
    exact hexec.trans (runUnit_of_trap (hltBody_of_not_level_zero h))

end Sys2Proof.Machine
end

section
/-! PROOFS. Encoding, third part: encoder and decoder are each other's inverse (30_encoding.md R101 to R105, R134 to
R140; 40_unit_protocol.md R161). `decodeCells_reads` says that the decoder takes exactly an encoding's bytes and stops
where they are cut short; what decodes was read from its own encoding by `decodeCells_gives`. Settles O1, O2, O3, O6,
O7. -/

namespace Sys2Proof.Laws.OpcodeReads

/-- Every row reads its instruction back. -/
theorem statement_of_instr (i : Instr) : Statement i := by
  cases i
  exacts [addRm8R8 _ _ _, addRmvRv _ _ _, addR8Rm8 _ _ _, addRvRmv _ _ _, addAlImm8 _ _, addEaxImmz _ _,
    orRm8R8 _ _ _, orRmvRv _ _ _, orR8Rm8 _ _ _, orRvRmv _ _ _, orAlImm8 _ _, orEaxImmz _ _, adcRm8R8 _ _ _,
    adcRmvRv _ _ _, adcR8Rm8 _ _ _, adcRvRmv _ _ _, adcAlImm8 _ _, adcEaxImmz _ _, sbbRm8R8 _ _ _, sbbRmvRv _ _ _,
    sbbR8Rm8 _ _ _, sbbRvRmv _ _ _, sbbAlImm8 _ _, sbbEaxImmz _ _, andRm8R8 _ _ _, andRmvRv _ _ _, andR8Rm8 _ _ _,
    andRvRmv _ _ _, andAlImm8 _ _, andEaxImmz _ _, subRm8R8 _ _ _, subRmvRv _ _ _, subR8Rm8 _ _ _, subRvRmv _ _ _,
    subAlImm8 _ _, subEaxImmz _ _, xorRm8R8 _ _ _, xorRmvRv _ _ _, xorR8Rm8 _ _ _, xorRvRmv _ _ _, xorAlImm8 _ _,
    xorEaxImmz _ _, cmpRm8R8 _ _ _, cmpRmvRv _ _ _, cmpR8Rm8 _ _ _, cmpRvRmv _ _ _, cmpAlImm8 _ _, cmpEaxImmz _ _,
    addRm8Imm8 _ _ _ _, addRmvImmz _ _ _, addRmvImm8 _ _ _, orRm8Imm8 _ _ _ _, orRmvImmz _ _ _, orRmvImm8 _ _ _,
    adcRm8Imm8 _ _ _ _, adcRmvImmz _ _ _, adcRmvImm8 _ _ _, sbbRm8Imm8 _ _ _ _, sbbRmvImmz _ _ _, sbbRmvImm8 _ _ _,
    andRm8Imm8 _ _ _ _, andRmvImmz _ _ _, andRmvImm8 _ _ _, subRm8Imm8 _ _ _ _, subRmvImmz _ _ _, subRmvImm8 _ _ _,
    xorRm8Imm8 _ _ _ _, xorRmvImmz _ _ _, xorRmvImm8 _ _ _, cmpRm8Imm8 _ _ _ _, cmpRmvImmz _ _ _, cmpRmvImm8 _ _ _,
    incRv _ _, decRv _ _, pushRv _ _, popRv _ _, pushImmz _ _, imulRvRmvImmz _ _ _ _, pushImm8 _ _,
    imulRvRmvImm8 _ _ _ _, jccRel8 _ _ _, testRm8R8 _ _ _, testRmvRv _ _ _, xchgRm8R8 _ _ _, xchgRmvRv _ _ _,
    movRm8R8 _ _ _, movRmvRv _ _ _, movR8Rm8 _ _ _, movRvRmv _ _ _, leaRvM _ _ _, nop _, xchgEaxEcx _,
    xchgEaxEdx _, xchgEaxEbx _, xchgEaxEsp _, xchgEaxEbp _, xchgEaxEsi _, xchgEaxEdi _, cbwCwde _, cwdCdq _,
    movAlMoffs8 _ _, movEaxMoffsv _ _, movMoffs8Al _ _, movMoffsvEax _ _, testAlImm8 _ _, testEaxImmz _ _,
    movR8Imm8 _ _ _, movRvImmz _ _ _, rolRm8Imm8 _ _ _, rolRmvImm8 _ _ _, rolRm8One _ _, rolRmvOne _ _,
    rolRm8Cl _ _, rolRmvCl _ _, rorRm8Imm8 _ _ _, rorRmvImm8 _ _ _, rorRm8One _ _, rorRmvOne _ _, rorRm8Cl _ _,
    rorRmvCl _ _, rclRm8Imm8 _ _ _, rclRmvImm8 _ _ _, rclRm8One _ _, rclRmvOne _ _, rclRm8Cl _ _, rclRmvCl _ _,
    rcrRm8Imm8 _ _ _, rcrRmvImm8 _ _ _, rcrRm8One _ _, rcrRmvOne _ _, rcrRm8Cl _ _, rcrRmvCl _ _, shlRm8Imm8 _ _ _,
    shlRmvImm8 _ _ _, shlRm8One _ _, shlRmvOne _ _, shlRm8Cl _ _, shlRmvCl _ _, shrRm8Imm8 _ _ _, shrRmvImm8 _ _ _,
    shrRm8One _ _, shrRmvOne _ _, shrRm8Cl _ _, shrRmvCl _ _, sarRm8Imm8 _ _ _, sarRmvImm8 _ _ _, sarRm8One _ _,
    sarRmvOne _ _, sarRm8Cl _ _, sarRmvCl _ _, retImm16 _ _, ret _, movRm8Imm8 _ _ _, movRmvImmz _ _ _,
    callRelz _ _, jmpRelz _ _, jmpRel8 _ _, hlt _, cmc _, testRm8Imm8 _ _ _, testRmvImmz _ _ _, notRm8 _ _,
    notRmv _ _, negRm8 _ _, negRmv _ _, mulRm8 _ _, mulRmv _ _, imulRm8 _ _, imulRmv _ _, divRm8 _ _, divRmv _ _,
    idivRm8 _ _, idivRmv _ _, clc _, stc _, incRm8 _ _, decRm8 _ _, incRmv _ _, decRmv _ _, callRmv _ _,
    jmpRmv _ _, pushRmv _ _, ud2 _, jccRelz _ _ _, setccRm8 _ _ _ _, imulRvRmv _ _ _, movzxRvRm8 _ _ _,
    movzxRvRm16 _ _ _, movsxRvRm8 _ _ _, movsxRvRm16 _ _ _]

end Sys2Proof.Laws.OpcodeReads

namespace Sys2Proof.Machine

open Sys2Proof.Claims

/-! ### The decoder on an encoding (R101, R105) -/

theorem encode_length (i : Instr) : (encode i).length = i.len := by
  have hmodrm : ∀ m : Option (BitVec 3 × Rm), (modrmBytes m).length = m.elim 0 fun x => x.2.len
    | none => rfl
    | some (_, rm) => Rm.tail_length rm
  have hop : i.layout.opBytes.length = if i.layout.two then 2 else 1 := by
    unfold Layout.opBytes
    split <;> rfl
  simp only [encode, Layout.bytes, List.length_append, List.length_map, hmodrm, hop, ImmField.bytes_length, Instr.len,
    Layout.len, Nat.add_assoc]

/-- Well-formed is well-formed in its parts and no longer than the limit (R104). -/
theorem Instr.wf_iff (i : Instr) : i.wf = true ↔ partsWf i.layout = true ∧ i.len ≤ maxInsnLen := by
  simp only [Instr.wf, Layout.wf, partsWf, Instr.len, Bool.and_eq_true, decide_eq_true_eq]

/-- The decoder reads an instruction back from the cells of its encoding, whatever cells follow. -/
theorem decodeCells_encode {i : Instr} (h : partsWf i.layout = true) (c : List Cell) :
    decodeCells i.pfx.dflt (cells (encode i) ++ c) = .ok (i, c) := by
  simp only [partsWf, Bool.and_eq_true] at h
  obtain ⟨⟨hpfx, hmodrm⟩, himm⟩ := h
  obtain ⟨hends, hdecode⟩ := Laws.OpcodeReads.statement_of_instr i hmodrm himm
  rw [cells_encode]
  exact (decodeCells_opcode hends hpfx _).trans (hdecode c)

/-- The decoder takes exactly the bytes of an encoding, and meets a stop that comes before their end (R103, R104). -/
theorem decodeCells_reads {i : Instr} (h : partsWf i.layout = true) :
    Reads (decodeCells i.pfx.dflt) (encode i) i := by
  obtain ⟨_, ⟨-, -, -, -, rfl⟩, -, hreads⟩ := decodeCells_gives _ _ _ _ (decodeCells_encode h [])
  exact hreads

/-- Settles O2: the buffer's cells begin with those of the encoding. -/
theorem decodeOfEncodeIsIdentity : Obligations.DecodeOfEncodeIsIdentity := by
  intro i rest hwf
  obtain ⟨hparts, hlen⟩ := (Instr.wf_iff i).mp hwf
  rw [decode, bufferCells_append ((encode_length i).trans_le hlen), decodeCells_encode hparts]
  rfl

/-! ### What decodes (R100, R144) -/

/-- Bytes read from cells that are bytes up to a last stop are the first of them. -/
theorem append_of_cells_eq {l l' : List Byte} {c : List Cell} {e : DecodeStop}
    (h : cells l ++ [.stop e] = cells l' ++ c) : ∃ rest, l = l' ++ rest := by
  induction l' generalizing l with
  | nil => exact ⟨l, rfl⟩
  | cons b l' ih =>
    cases l with
    | nil => simp at h
    | cons a l =>
      simp only [cells_cons, List.cons_append, List.cons.injEq, Cell.byte.injEq] at h
      obtain ⟨rfl, htail⟩ := h
      obtain ⟨rest, rfl⟩ := ih htail
      exact ⟨rest, rfl⟩

/-- Settles O3: the decoder gave the instruction from cells that were its own bytes, and the buffer has 15 at most. -/
theorem decodedInstructionIsItsBytes : Obligations.DecodedInstructionIsItsBytes := by
  intro z bytes i h
  cases hd : decodeCells z (bufferCells bytes) with
  | error e => simp [decode, hd, Except.map] at h
  | ok x =>
    obtain ⟨j, c⟩ := x
    obtain rfl : j = i := by simpa [decode, hd, Except.map] using h
    obtain ⟨_, ⟨hdflt, hpfx, hmodrm, himm, rfl⟩, hcells, -⟩ := decodeCells_gives z _ j c hd
    obtain ⟨rest, hrest⟩ := append_of_cells_eq hcells
    have hlen : j.len ≤ 15 := by
      have htake := congrArg List.length hrest
      rw [List.length_take, List.length_append, encode_length, maxInsnLen] at htake
      omega
    have hpos : 1 ≤ j.len := by
      unfold Instr.len Layout.len
      split <;> omega
    refine ⟨(Instr.wf_iff j).mpr ⟨by simp [partsWf, hpfx, hmodrm, himm], hlen⟩, hdflt,
      ⟨rest ++ bytes.drop maxInsnLen, ?_⟩, encode_length j, hpos, hlen⟩
    rw [← List.append_assoc, ← hrest, List.take_append_drop]

/-- Settles O1: each word is decoded by evaluation. -/
theorem specWordsDecode : Obligations.SpecWordsDecode := by
  refine ⟨rfl, rfl, rfl, rfl, rfl, rfl, rfl, rfl, rfl, rfl, rfl, rfl⟩

/-! ### Too many bytes (R104) -/

theorem bufferCells_of_length_le {bytes : List Byte} (h : 15 ≤ bytes.length) :
    bufferCells bytes = cells (bytes.take 15) ++ [.stop (.fault .tooLong)] := by
  rw [bufferCells, maxInsnLen, if_pos h, cells]

/-- The prefix loop meets a stop among prefixes that agree (R101, R106). -/
theorem decodeCells_prefixes_cut {z : OpSize} {l : List Prefix} (h : (⟨z, l⟩ : Prefixes).wf = true) {k : Nat}
    (hk : k ≤ l.length) (e : DecodeStop) :
    decodeCells z (cells ((prefixBytes l).take k) ++ [.stop e]) = .error e := by
  have hreads := prefixLoop_reads (op := 0x90) rfl l none ((Prefixes.wf_iff_overridesAgree z l).mp h)
  have hcut := hreads.cut k (by simpa using hk) e []
  rw [List.take_append_of_le_length (by simpa using hk)] at hcut
  simp only [decodeCells_prefixLoop, prefixBytes, hcut]
  rfl

/-- Settles O7: the buffer stops with TooLong after 15 bytes, inside the encoding or the prefixes. -/
theorem instructionsOver15BytesAreTooLong : Obligations.InstructionsOver15BytesAreTooLong := by
  refine ⟨fun i rest hparts hlen => ?_, fun z l rest hwf hlen => ?_⟩
  · rw [← encode_length] at hlen
    rw [decode, bufferCells_of_length_le (by rw [List.length_append]; omega),
      List.take_append_of_le_length hlen.le, (decodeCells_reads hparts).cut 15 hlen]
    rfl
  · have hbytes : 15 ≤ (prefixBytes l).length := by simpa [prefixBytes] using hlen
    rw [decode, bufferCells_of_length_le (by rw [List.length_append]; omega),
      List.take_append_of_le_length hbytes, decodeCells_prefixes_cut hwf hlen]
    rfl

/-! ### Two segment overrides (R108) -/

/-- The prefix loop past prefixes that agree: it goes on with the override they name, or with the one seen before. -/
theorem readPrefixes_append {seen : Option SegReg} {l : List Prefix} (h : overridesAgree seen l) (c : List Cell) :
    readPrefixes seen (cells (prefixBytes l) ++ c) =
      (readPrefixes ((segOverride l).or seen) c).map fun x => (l ++ x.1, x.2) := by
  have hmap (q : Prefix) (l : List Prefix) (r : Except DecodeStop (List Prefix × Byte × List Cell)) :
      ((r.map fun x => (l ++ x.1, x.2)).map fun x => (q :: x.1, x.2)) = r.map fun x => (q :: l ++ x.1, x.2) := by
    cases r <;> rfl
  induction l generalizing seen with
  | nil => cases hr : readPrefixes seen c <;> simp [prefixBytes, segOverride, hr, Except.map]
  | cons q l ih =>
    rw [prefixBytes, List.map_cons, cells_cons, List.cons_append, readPrefixes, Prefix.ofByte_byte, ← hmap]
    cases q with
    | opSize => exact congrArg (Except.map _) (ih h)
    | addrSize => exact congrArg (Except.map _) (ih h)
    | seg s =>
      have hlast : (segOverride l).or (some s) = some s := by
        cases hs : segOverride l with
        | none => rfl
        | some s' =>
          have hagree := ((overridesAgree_iff l (some s)).mp h.2).1 s' (segOverride_mem hs)
          simpa [eq_comm] using hagree
      refine (if_pos h.1).trans (congrArg (Except.map _) ((ih h.2).trans ?_))
      rw [hlast]
      rfl

/-- One more override of the segment that the prefixes name agrees with them. -/
theorem Prefixes.wf_append_seg {z : OpSize} {l : List Prefix} {s : SegReg} (h : (⟨z, l⟩ : Prefixes).wf = true)
    (hs : segOverride l = some s) : (⟨z, l ++ [.seg s]⟩ : Prefixes).wf = true := by
  have hsame : ∀ a, .seg a ∈ l ++ [.seg s] → a = s := by
    intro a ha
    rcases List.mem_append.mp ha with ha | ha
    · exact Prefixes.wf_unique h ha (segOverride_mem hs)
    · simpa using ha
  rw [Prefixes.wf_iff_overridesAgree, overridesAgree_iff]
  exact ⟨fun _ _ => .inl rfl, fun a b ha hb => (hsame a ha).trans (hsame b hb).symm⟩

/-- A second override that differs stops the loop. -/
theorem readPrefixes_conflict {s s' : SegReg} (h : s ≠ s') (c : List Cell) :
    readPrefixes (some s) (.byte (Prefix.byte (.seg s')) :: c) = .error .multipleSegmentOverride := by
  simp [readPrefixes, h]

/-- Settles O6: the loop stops at the second override; past the same one again it comes to NOP. -/
theorem twoSegmentOverridesAreRefused : Obligations.TwoSegmentOverridesAreRefused := by
  intro z l s s' rest hwf hlen hs
  refine ⟨fun hne => ?_, fun heq hlen' b _ hb => ?_⟩
  · have hbytes : (prefixBytes (l ++ [.seg s'])).length ≤ maxInsnLen := by
      rw [prefixBytes, List.length_map, List.length_append]
      exact Nat.succ_le_succ hlen
    have hcells : cells (prefixBytes (l ++ [.seg s'])) = cells (prefixBytes l) ++ [.byte (Prefix.byte (.seg s'))] := by
      simp [prefixBytes]
    rw [decode, bufferCells_append hbytes, hcells, List.append_assoc, List.singleton_append, decodeCells,
      readPrefixes_append ((Prefixes.wf_iff_overridesAgree z l).mp hwf), hs, Option.some_or, readPrefixes_conflict hne]
    rfl
  · subst heq hb
    have hnop : Instr.wf (.nop ⟨z, l ++ [.seg s]⟩) = true := by
      refine (Instr.wf_iff _).mpr ⟨?_, ?_⟩
      · show (Prefixes.wf ⟨z, l ++ [.seg s]⟩ && true && true) = true
        rw [Prefixes.wf_append_seg hwf hs]
        rfl
      · show (l ++ [Prefix.seg s]).length + 1 ≤ 15
        rw [List.length_append]
        exact Nat.add_le_add_right hlen' 2
    have hbytes : prefixBytes (l ++ [.seg s]) ++ 0x90 :: rest = encode (.nop ⟨z, l ++ [.seg s]⟩) ++ rest :=
      (List.append_assoc (prefixBytes (l ++ [.seg s])) [0x90] rest).symm
    rw [hbytes]
    exact decodeOfEncodeIsIdentity _ rest hnop

end Sys2Proof.Machine
end

section
/-! PROOFS. Encoding, fourth part: the encodings that are refused by their bytes (30_encoding.md R109, R136 to R138,
R141). The opcodes without a row are listed once, in `refusedOpcodes`. Settles O5. -/

namespace Sys2Proof.Machine

open Sys2Proof.Claims Sys2Proof.Laws.OpcodeReads

/-! ### Opcodes without a row (R134, R139, R141) -/

/-- The one-byte opcodes that have no row, the prefix bytes and the escape 0F among them (R134). -/
def refusedOpcodes : List Byte :=
  [0x06, 0x07, 0x0E, 0x0F, 0x16, 0x17, 0x1E, 0x1F, 0x26, 0x27, 0x2E, 0x2F, 0x36, 0x37, 0x3E, 0x3F,
    0x60, 0x61, 0x62, 0x63, 0x64, 0x65, 0x66, 0x67, 0x6C, 0x6D, 0x6E, 0x6F, 0x8C, 0x8E, 0x8F,
    0x9A, 0x9B, 0x9C, 0x9D, 0x9E, 0x9F, 0xA4, 0xA5, 0xA6, 0xA7, 0xAA, 0xAB, 0xAC, 0xAD, 0xAE, 0xAF,
    0xC4, 0xC5, 0xC8, 0xC9, 0xCA, 0xCB, 0xCC, 0xCD, 0xCE, 0xCF,
    0xD4, 0xD5, 0xD6, 0xD7, 0xD8, 0xD9, 0xDA, 0xDB, 0xDC, 0xDD, 0xDE, 0xDF,
    0xE0, 0xE1, 0xE2, 0xE3, 0xE4, 0xE5, 0xE6, 0xE7, 0xEA, 0xEC, 0xED, 0xEE, 0xEF,
    0xF0, 0xF1, 0xF2, 0xF3, 0xFA, 0xFB, 0xFC, 0xFD]

theorem mem_refusedOpcodes_of_not_admitted : ∀ op : Byte, admittedOne op = false → op ∈ refusedOpcodes := by
  decide

theorem mapOne_of_refused (p : Prefixes) (c : List Cell) :
    ∀ op ∈ refusedOpcodes, mapOne p op c = .error (.notAdmitted [op]) := by
  simp only [refusedOpcodes, List.forall_mem_cons, List.not_mem_nil, IsEmpty.forall_iff, implies_true,
    and_true]
  and_intros <;> rfl

theorem mapTwo_of_not_admitted (p : Prefixes) {op : Byte} (h : admittedTwo op = false) (c : List Cell) :
    mapTwo p op c = .error (.notAdmitted [0x0F, op]) := by
  simp only [admittedTwo, decide_eq_false_iff_not] at h
  unfold mapTwo
  split
  · omega
  · omega
  · split
    case h_7 => rfl
    all_goals omega

/-! ### Group extensions without a row (R136 to R138) -/

/-- Groups 2, 3 and 5 have extensions without a row. -/
theorem refusedGroup_cases {op next : Byte} (h : refusedGroup op next = true) :
    (regField next = 6 ∧ op ∈ [0xC0#8, 0xC1#8, 0xD0#8, 0xD1#8, 0xD2#8, 0xD3#8]) ∨
      (regField next = 1 ∧ op ∈ [0xF6#8, 0xF7#8]) ∨
      ((regField next = 3 ∨ regField next = 5) ∧ op ∈ [0xFF#8]) := by
  simp only [refusedGroup, decide_eq_true_eq, ← regField_toNat] at h
  simp only [List.mem_cons, List.not_mem_nil, or_false, ← BitVec.toNat_inj, BitVec.toNat_ofNat, BitVec.ofNat_eq_ofNat]
  omega

/-- The opcode of a group goes to the one-byte map. -/
theorem endsPrefixes_of_refusedGroup {op next : Byte} (h : refusedGroup op next = true) :
    op ≠ 0x0F ∧ endsPrefixes op = true := by
  have hcases := refusedGroup_cases h
  clear h
  rcases hcases with ⟨-, hop⟩ | ⟨-, hop⟩ | ⟨-, hop⟩ <;> revert op <;> decide

theorem mapOne_of_refusedGroup (p : Prefixes) {op next : Byte} (h : refusedGroup op next = true) (c : List Cell) :
    mapOne p op (.byte next :: c) = .error (.notAdmitted [op, next]) := by
  have hcases := refusedGroup_cases h
  rw [← packByte_fields next]
  generalize modField next = m, regField next = r, rmField next = x at hcases
  simp only [List.mem_cons, List.not_mem_nil, or_false] at hcases
  rcases hcases with ⟨rfl, rfl | rfl | rfl | rfl | rfl | rfl⟩ | ⟨rfl, rfl | rfl⟩ | ⟨rfl | rfl, rfl⟩
  · exact groupC0_packByte p m 6 x c
  · exact groupC1_packByte p m 6 x c
  · exact groupD0_packByte p m 6 x c
  · exact groupD1_packByte p m 6 x c
  · exact groupD2_packByte p m 6 x c
  · exact groupD3_packByte p m 6 x c
  · exact groupF6_packByte p m 1 x c
  · exact groupF7_packByte p m 1 x c
  · exact groupFF_packByte p m 3 x c
  · exact groupFF_packByte p m 5 x c

/-! ### The decoder after the prefixes -/

/-- The decoder on two bytes after prefixes: the prefix loop comes to their cells. -/
theorem decode_prefixes_append {l : List Prefix} (hlen : l.length ≤ 13) (z : OpSize) (op next : Byte)
    (rest : List Byte) : ∃ c, decode z (prefixBytes l ++ op :: next :: rest) =
      (decodeCells z (cells (prefixBytes l) ++ .byte op :: .byte next :: c)).map Prod.fst := by
  have hbytes : prefixBytes l ++ op :: next :: rest = (prefixBytes l ++ [op, next]) ++ rest := by simp
  have hshort : (prefixBytes l ++ [op, next]).length ≤ maxInsnLen := by
    rw [List.length_append, prefixBytes, List.length_map]
    exact Nat.add_le_add_right hlen 2
  refine ⟨cellsAfter (prefixBytes l ++ [op, next]) rest, ?_⟩
  rw [decode, hbytes, bufferCells_append hshort, cells_append, List.append_assoc, cells_cons, List.cons_append]
  rfl

/-- Settles O5: the map of the opcode refuses it, and the prefix loop itself LOCK and REP. -/
theorem encodingsWithoutARowAreRefused : Obligations.EncodingsWithoutARowAreRefused := by
  intro z l op next rest hwf hlen hop
  obtain ⟨c, hdecode⟩ := decode_prefixes_append hlen z op next rest
  rw [hdecode]
  refine ⟨fun hesc h => ?_, fun hesc h => ?_, fun h => ?_⟩
  · by_cases hloop : op = 0xF0 ∨ op = 0xF2 ∨ op = 0xF3
    · rw [decodeCells_refused hloop hwf]
      rfl
    · have hends : endsPrefixes op = true := by simpa [endsPrefixes, hop, not_or, and_assoc] using hloop
      rw [decodeCells_opcode hends hwf, decodeOpcode, if_neg hesc,
        mapOne_of_refused _ _ op (mem_refusedOpcodes_of_not_admitted op h)]
      rfl
  · subst hesc
    rw [decodeCells_opcode rfl hwf, decodeOpcode, if_pos rfl, take1_byte]
    exact congrArg (Except.map _) (mapTwo_of_not_admitted _ h c)
  · obtain ⟨hesc, hloop⟩ := endsPrefixes_of_refusedGroup h
    rw [decodeCells_opcode hloop hwf, decodeOpcode, if_neg hesc, mapOne_of_refusedGroup _ h]
    rfl

end Sys2Proof.Machine
end

section
/-! PROOFS. State, third part: what the fetch puts into the decoder's cells (10_state.md R46, R49; 20_memory.md R75,
R78; 30_encoding.md R103, R106). `fetchCells_of_bytes` splits the cells at bytes that can be fetched; the decoder's side is
`decodeCells_reads`. Settles O18. -/

namespace Sys2Proof.Machine

open Sys2Proof.Claims

/-! ### The cells of a fetch (R78, R103) -/

theorem State.fetchCell_of_ok {s : State} {off : Word} {b : Byte} (hok : s.access .fetch .cs off 1 = .ok)
    (hb : Memory.read s.mem (s.lin .cs off).toNat = b) : s.fetchCell off = .byte b := by
  rw [State.fetchCell, hok, ← hb]

/-- Bytes that stand in the first cells are the first cells; the others are fetched after them. -/
theorem State.fetchCells_of_bytes {s : State} {off : Word} {l : List Byte} {n : Nat} (hlen : l.length ≤ n)
    (h : ∀ k b, l[k]? = some b → s.fetchCell (off + BitVec.ofNat 32 k) = .byte b) :
    s.fetchCells off n = cells l ++ s.fetchCells (off + BitVec.ofNat 32 l.length) (n - l.length) := by
  induction l generalizing off n with
  | nil => simp
  | cons b l ih =>
    obtain ⟨n, rfl⟩ : ∃ m, n = m + 1 := ⟨n - 1, by simp at hlen; omega⟩
    have hhead : s.fetchCell off = .byte b := by simpa using h 0 b rfl
    have htail := ih (off := off + 1) (n := n) (by simpa using hlen) fun k b hk => by
      rw [← add_ofNat_succ]
      exact h (k + 1) b hk
    rw [State.fetchCells, hhead, htail, ← add_ofNat_succ, List.length_cons, Nat.add_sub_add_right, cells_cons,
      List.cons_append]

/-- Bytes of an instruction that can be fetched, at their places. -/
def FetchesBytes (s : State) (off : Word) (l : List Byte) : Prop :=
  ∀ k b, l[k]? = some b → s.access .fetch .cs (off + BitVec.ofNat 32 k) 1 = .ok ∧
    Memory.read s.mem (s.lin .cs (off + BitVec.ofNat 32 k)).toNat = b

theorem FetchesBytes.fetchCells_eq {s : State} {off : Word} {l : List Byte} (h : FetchesBytes s off l)
    (hlen : l.length ≤ maxInsnLen) : s.fetchCells off maxInsnLen =
      cells l ++ s.fetchCells (off + BitVec.ofNat 32 l.length) (maxInsnLen - l.length) :=
  State.fetchCells_of_bytes hlen fun k b hk => State.fetchCell_of_ok (h k b hk).1 (h k b hk).2

/-- Where the encoding can be fetched it decodes. -/
theorem decodeAt_of_fetchesBytes {s : State} {off : Word} {i : Instr} (hwf : i.wf = true) (hdflt : i.pfx.dflt = s.dflt)
    (h : FetchesBytes s off (encode i)) : s.decodeAt off = .ok i := by
  obtain ⟨hparts, hlen⟩ := (Instr.wf_iff i).mp hwf
  rw [State.decodeAt, h.fetchCells_eq ((encode_length i).trans_le hlen), ← hdflt, decodeCells_encode hparts]
  rfl

/-- The first byte of an encoding that cannot be fetched stops the decoder with what its cell says. -/
theorem decodeAt_of_stop {s : State} {off : Word} {i : Instr} {n : Nat} (hwf : i.wf = true)
    (hdflt : i.pfx.dflt = s.dflt) (hn : n < i.len) (h : FetchesBytes s off ((encode i).take n)) {e : DecodeStop}
    (hstop : s.fetchCell (off + BitVec.ofNat 32 n) = .stop e) : s.decodeAt off = .error e := by
  obtain ⟨hparts, hlen⟩ := (Instr.wf_iff i).mp hwf
  rw [← encode_length] at hn hlen
  have htake : ((encode i).take n).length = n := by rw [List.length_take]; omega
  obtain ⟨m, hm⟩ : ∃ m, maxInsnLen - n = m + 1 := ⟨maxInsnLen - n - 1, by omega⟩
  rw [State.decodeAt, h.fetchCells_eq (by omega), htake, hm, State.fetchCells, hstop, ← hdflt,
    (decodeCells_reads hparts).cut n hn]
  rfl

/-! ### Sizes (R46, R49, R106) -/

theorem decodeAt_dflt {s : State} {off : Word} {i : Instr} (h : s.decodeAt off = .ok i) : i.pfx.dflt = s.dflt := by
  cases hd : decodeCells s.dflt (s.fetchCells off maxInsnLen) with
  | error e => simp [State.decodeAt, hd, Except.map] at h
  | ok x =>
    obtain ⟨j, c⟩ := x
    obtain rfl : j = i := by simpa [State.decodeAt, hd, Except.map] using h
    obtain ⟨_, ⟨hdflt, -⟩, -⟩ := decodeCells_gives _ _ j c hd
    exact hdflt

theorem State.dflt_eq_w32_iff (s : State) : s.dflt = .w32 ↔ s.mode = .prot ∧ s.codeSize32 = true := by
  unfold State.dflt
  split
  · next h => simpa using h
  · next h => simpa using h

theorem OpSize.other_ne (z : OpSize) : z.other ≠ z := by cases z <;> decide

/-- A prefix that turns a size over does so exactly when its byte is among the prefix bytes. -/
theorem size_ne_dflt_iff (p : Prefixes) (q : Prefix) :
    (if p.list.contains q then p.dflt.other else p.dflt) ≠ p.dflt ↔ q.byte ∈ prefixBytes p.list := by
  have hmem : q.byte ∈ prefixBytes p.list ↔ q ∈ p.list := by
    rw [prefixBytes, List.mem_map_of_injective]
    intro a b hab
    exact Option.some_inj.mp ((Prefix.ofByte_byte a).symm.trans (hab ▸ Prefix.ofByte_byte b))
  rw [hmem]
  split
  · next h => simpa [OpSize.other_ne] using h
  · next h => simpa using h

/-- Settles O18: the cells are the encoding's bytes, or those before the first that cannot be fetched. -/
theorem fetchDecodesTheEncodedInstruction : Obligations.FetchDecodesTheEncodedInstruction := by
  refine ⟨fun s off i hwf hdflt h => decodeAt_of_fetchesBytes hwf hdflt h, fun s off i n hwf hdflt hn h => ?_,
    fun s off i h => decodeAt_dflt h, State.dflt_eq_w32_iff,
    fun p => ⟨size_ne_dflt_iff p .opSize, size_ne_dflt_iff p .addrSize⟩⟩
  have hfetch : FetchesBytes s off ((encode i).take n) := by
    intro k b hk
    rw [List.getElem?_take] at hk
    split at hk
    · next hkn => exact h k b hkn hk
    · cases hk
  refine ⟨fun v c ha => decodeAt_of_stop hwf hdflt hn hfetch ?_, fun ha => decodeAt_of_stop hwf hdflt hn hfetch ?_⟩
  · rw [State.fetchCell, ha]
  · rw [State.fetchCell, ha]

end Sys2Proof.Machine
end

section
/-! PROOFS. Memory, second part: every access oracle is a finite table (20_memory.md R74, R82). `exactRules` has one rule
for each access of 1, 2 or 4 bytes, which fits that access alone. Settles O13. -/

namespace Sys2Proof.Machine

/-- The rule that fits one access alone, with the oracle's answer (R74). -/
def exactRule (f : AccessKind → SegReg → Word → Nat → AccessAnswer) (k : AccessKind) (g : SegReg) (off : Word)
    (n : Nat) : AccessRule := ⟨k, g, off, off, some n, f k g off n⟩

theorem exactRule_fits_iff (f : AccessKind → SegReg → Word → Nat → AccessAnswer) {k k' : AccessKind} {g g' : SegReg}
    {off off' : Word} {n n' : Nat} :
    AccessRule.fits (exactRule f k' g' off' n') k g off n = true ↔ k' = k ∧ g' = g ∧ off' = off ∧ n' = n := by
  have hoff : off'.toNat ≤ off.toNat ∧ off.toNat ≤ off'.toNat ↔ off' = off := by
    rw [← Nat.le_antisymm_iff, BitVec.toNat_inj]
  have hsize : (some n' == none || some n' == some n) = true ↔ n' = n := by simp
  show (k' == k && g' == g && decide (off'.toNat ≤ off.toNat) && decide (off.toNat ≤ off'.toNat) &&
    (some n' == none || some n' == some n)) = true ↔ _
  simp only [Bool.and_eq_true, beq_iff_eq, decide_eq_true_eq, hsize, ← hoff, and_assoc]

/-- Every offset. -/
def allOffsets : List Word := (List.range (2 ^ 32)).map (BitVec.ofNat 32)

theorem mem_allOffsets (off : Word) : off ∈ allOffsets :=
  List.mem_map.mpr ⟨off.toNat, List.mem_range.mpr off.isLt, by simp⟩

/-- One rule for each access of 1, 2 or 4 bytes. -/
def exactRules (f : AccessKind → SegReg → Word → Nat → AccessAnswer) : List AccessRule :=
  [AccessKind.read, .write, .fetch, .branch].flatMap fun k =>
    [SegReg.es, .cs, .ss, .ds, .fs, .gs].flatMap fun g =>
      allOffsets.flatMap fun off => [1, 2, 4].map fun n => exactRule f k g off n

theorem mem_exactRules_iff (f : AccessKind → SegReg → Word → Nat → AccessAnswer) (r : AccessRule) :
    r ∈ exactRules f ↔ ∃ k g off n, (n = 1 ∨ n = 2 ∨ n = 4) ∧ r = exactRule f k g off n := by
  have hk (k : AccessKind) : k ∈ [AccessKind.read, .write, .fetch, .branch] := by cases k <;> decide
  have hg (g : SegReg) : g ∈ [SegReg.es, .cs, .ss, .ds, .fs, .gs] := by cases g <;> decide
  simp only [exactRules, List.mem_flatMap, List.mem_map, hk, hg, mem_allOffsets, true_and, List.mem_cons,
    List.not_mem_nil, or_false, eq_comm]

/-- A table answers `a` where a rule fits and every rule that fits has the answer `a`. -/
theorem oracleAnswer_of_fits {t : List AccessRule} {k : AccessKind} {g : SegReg} {off : Word} {n : Nat}
    {a : AccessAnswer} (hsome : ∃ r ∈ t, AccessRule.fits r k g off n = true)
    (hall : ∀ r ∈ t, AccessRule.fits r k g off n = true → r.answer = a) : oracleAnswer t k g off n = a := by
  unfold oracleAnswer
  cases h : t.find? fun r => AccessRule.fits r k g off n with
  | none =>
    obtain ⟨r, hr, hfits⟩ := hsome
    exact absurd hfits (List.find?_eq_none.mp h r hr)
  | some r => exact hall r (List.mem_of_find?_eq_some h) (by simpa using List.find?_some h)

/-- Settles O13: the rule of an access is in the table, and no other fits it. -/
theorem oracleTablesExpressEveryOracle : Obligations.OracleTablesExpressEveryOracle := by
  intro f
  refine ⟨exactRules f, fun k g off n hn => oracleAnswer_of_fits ?_ ?_⟩
  · exact ⟨exactRule f k g off n, (mem_exactRules_iff f _).mpr ⟨k, g, off, n, hn, rfl⟩,
      (exactRule_fits_iff f).mpr ⟨rfl, rfl, rfl, rfl⟩⟩
  · intro r hr hfits
    obtain ⟨k', g', off', n', -, rfl⟩ := (mem_exactRules_iff f r).mp hr
    obtain ⟨rfl, rfl, rfl, rfl⟩ := (exactRule_fits_iff f).mp hfits
    rfl

end Sys2Proof.Machine
end

section
/-! PROOFS. State, fourth part: the state after reset (10_state.md R60) and the snapshot of 40_unit_protocol.md R187,
whose EFLAGS word is handled bit by bit as in the first part. Settles O15 and O16. -/

namespace Sys2Proof.Machine

open Sys2Proof.Claims

/-- Settles O15: each value is the one written in `State.resetWith`. -/
theorem resetLeavesTheStatedValues : Obligations.ResetLeavesTheStatedValues := by
  have tf_reset : (0x00000002 : Word).getLsbD 8 = false := by decide
  have lin_reset : (0xFFFF0000 : Word) + 0x0000FFF0 = 0xFFFFFFF0 := by decide
  refine ⟨fun q => ⟨fun r hr => ?_, rfl, rfl, rfl, rfl, tf_reset, rfl, rfl, rfl, rfl, rfl, fun g hg => ?_, rfl,
    lin_reset⟩, rfl⟩
  · cases r with
    | edx => exact absurd rfl hr
    | _ => rfl
  · cases g with
    | cs => exact absurd rfl hg
    | _ => rfl

/-! ### The fields of a snapshot (R187) -/

theorem Mode.ofNumber_number (m : Mode) : Mode.ofNumber (Mode.number m) = m := by cases m <;> rfl

theorem Mode.number_ofNumber {w : Word} (h : w.toNat ≤ 2) : Mode.number (Mode.ofNumber w) = w := by
  apply BitVec.eq_of_toNat_eq
  unfold Mode.ofNumber
  split
  · next h0 => exact h0.symm
  · next h1 => exact h1.symm
  · next h0 h1 =>
    simp only [imp_false] at h0 h1
    exact (show w.toNat = 2 by omega).symm

theorem bitWord_beq_one (b : Bool) : (bitWord b == 1) = b := by cases b <;> rfl

theorem bitWord_of_le_one {w : Word} (h : w.toNat ≤ 1) : bitWord (w == 1) = w := by
  obtain h | h := Nat.le_one_iff_eq_zero_or_eq_one.mp h
  · obtain rfl : w = 0 := BitVec.eq_of_toNat_eq h
    rfl
  · obtain rfl : w = 1 := BitVec.eq_of_toNat_eq h
    rfl

theorem bitWord_toNat_le (b : Bool) : (bitWord b).toNat ≤ 1 := by cases b <;> decide

/-- A narrow field widened to a word and cut back. -/
theorem extractLsb'_setWidth {n : Nat} (v : BitVec n) (h : n ≤ 32) : (v.setWidth 32).extractLsb' 0 n = v := by
  apply BitVec.eq_of_getLsbD_eq
  intro k hk
  simp [hk, show k < 32 by omega]

/-- A word within a narrow field cut to it and widened back. -/
theorem setWidth_extractLsb' {n : Nat} {w : Word} (h : w.toNat < 2 ^ n) : (w.extractLsb' 0 n).setWidth 32 = w := by
  apply BitVec.eq_of_toNat_eq
  simp [Nat.mod_eq_of_lt h, w.isLt]

/-! ### The EFLAGS word (R42) -/

theorem State.flagsOf_eflags (s : State) : flagsOf s.eflags = s.flags := by
  simp only [flagsOf, State.eflags_getLsbD, statusBits]
  simp

/-- The bits other than the six are those of `eflagsOther`, where it holds none of the six. -/
theorem State.eflags_clearStatus {s : State} (h : s.eflagsOther &&& statusMask = 0) :
    s.eflags &&& ~~~statusMask = s.eflagsOther := by
  apply BitVec.eq_of_getLsbD_eq
  intro k _
  have hk : (s.eflagsOther.getLsbD k && decide (k ∈ statusBits)) = false := by
    rw [← statusMask_getLsbD, ← BitVec.getLsbD_and, h]
    exact BitVec.getLsbD_zero
  rw [clearStatus_getLsbD, State.eflags_getLsbD]
  by_cases hs : k ∈ statusBits
  · simp only [hs, decide_true, Bool.and_true] at hk
    simp [hs, hk]
  · have hne : ∀ j ∈ statusBits, k ≠ j := fun j hj hkj => hs (hkj ▸ hj)
    simp [statusBits] at hne
    simp [hs, hne]

/-- The image of the fields that an image sets. -/
theorem State.eflags_of_image {s : State} {w : Word} (hf : s.flags = flagsOf w)
    (ho : s.eflagsOther = w &&& ~~~statusMask) : s.eflags = w := by
  apply BitVec.eq_of_getLsbD_eq
  intro k _
  rw [State.eflags_getLsbD, hf, ho, clearStatus_getLsbD]
  by_cases hs : k ∈ statusBits
  · simp only [statusBits, List.mem_cons, List.not_mem_nil, or_false] at hs
    rcases hs with rfl | rfl | rfl | rfl | rfl | rfl <;> simp [flagsOf, statusBits]
  · have hne : ∀ j ∈ statusBits, k ≠ j := fun j hj hkj => hs (hkj ▸ hj)
    simp [statusBits] at hne
    simp [hs, hne]

/-! ### The round trip (R187) -/

theorem State.getState_inRange {s : State} (h : Mode.allowsCpl s.mode s.cpl.toNat = true) : inRange s.getState := by
  have hsel : ∀ v : BitVec 16, (v.setWidth 32).toNat ≤ 0xFFFF := fun v => by
    rw [BitVec.toNat_setWidth_of_le (by decide)]
    exact Nat.le_of_lt_succ v.isLt
  have hcpl : (s.cpl.setWidth 32).toNat = s.cpl.toNat := BitVec.toNat_setWidth_of_le (by decide)
  refine ⟨rfl, fun k hlow hhigh => ?_, ?_, bitWord_toNat_le s.codeSize32, bitWord_toNat_le s.stackSize32, ?_, ?_⟩
  · interval_cases k <;> exact hsel _
  · show (Mode.number s.mode).toNat ≤ 2
    cases s.mode <;> decide
  · exact hcpl.trans_le (Nat.le_of_lt_succ s.cpl.isLt)
  · show ((Mode.number s.mode).toNat = 0 → (s.cpl.setWidth 32).toNat = 0) ∧
      ((Mode.number s.mode).toNat = 2 → (s.cpl.setWidth 32).toNat = 3)
    rw [hcpl]
    cases hm : s.mode with
    | real => simpa [hm, Mode.allowsCpl, Mode.number] using h
    | prot => simp [Mode.number]
    | v86 => simpa [hm, Mode.allowsCpl, Mode.number] using h

theorem State.setState_getState {s : State} (ho : s.eflagsOther &&& statusMask = 0)
    (hc : Mode.allowsCpl s.mode s.cpl.toNat = true) : s.setState s.getState = s := by
  rw [State.setState, if_pos ((snapshotValid_iff _).mpr (State.getState_inRange hc))]
  have hsegment : ∀ g : Segment, (⟨(g.sel.setWidth 32).extractLsb' 0 16, g.base⟩ : Segment) = g := fun g => by
    rw [extractLsb'_setWidth g.sel (by decide)]
  show State.mk s.gpr s.eip (flagsOf s.eflags) (s.eflags &&& ~~~statusMask) (Mode.ofNumber (Mode.number s.mode))
    (bitWord s.codeSize32 == 1) (bitWord s.stackSize32 == 1) ((s.cpl.setWidth 32).extractLsb' 0 2)
    ⟨⟨(s.seg.es.sel.setWidth 32).extractLsb' 0 16, s.seg.es.base⟩,
      ⟨(s.seg.cs.sel.setWidth 32).extractLsb' 0 16, s.seg.cs.base⟩,
      ⟨(s.seg.ss.sel.setWidth 32).extractLsb' 0 16, s.seg.ss.base⟩,
      ⟨(s.seg.ds.sel.setWidth 32).extractLsb' 0 16, s.seg.ds.base⟩,
      ⟨(s.seg.fs.sel.setWidth 32).extractLsb' 0 16, s.seg.fs.base⟩,
      ⟨(s.seg.gs.sel.setWidth 32).extractLsb' 0 16, s.seg.gs.base⟩⟩
    s.mem s.refused s.params s.block s.lastTag s.report s.draws = s
  rw [State.flagsOf_eflags, State.eflags_clearStatus ho, Mode.ofNumber_number, bitWord_beq_one, bitWord_beq_one,
    extractLsb'_setWidth s.cpl (by decide)]
  simp only [hsegment]

/-- A snapshot is its 26 words. -/
theorem eq_snapWords {a : List Word} (h : a.length = 26) : a = (List.range 26).map (snapWord a) := by
  refine List.ext_getElem (by simp [h]) fun k hk _ => ?_
  simp [snapWord, List.getElem?_eq_getElem hk]

theorem State.getState_setState {s : State} {a : List Word} (h : inRange a) : (s.setState a).getState = a := by
  obtain ⟨hlen, hsel, hmode, hcode, hstack, hcpl, -⟩ := id h
  have heflags : (s.setState a).eflags = snapWord a 9 :=
    State.eflags_of_image (s.setState_eflags_fields h).1 (s.setState_eflags_fields h).2
  have hselector : ∀ k, 10 ≤ k → k ≤ 15 → ((snapWord a k).extractLsb' 0 16).setWidth 32 = snapWord a k :=
    fun k hlow hhigh => setWidth_extractLsb' (Nat.lt_succ_of_le (hsel k hlow hhigh))
  have hnumber : Mode.number (Mode.ofNumber (snapWord a 22)) = snapWord a 22 := Mode.number_ofNumber hmode
  have hcodeSize : bitWord (snapWord a 23 == 1) = snapWord a 23 := bitWord_of_le_one hcode
  have hstackSize : bitWord (snapWord a 24 == 1) = snapWord a 24 := bitWord_of_le_one hstack
  have hlevel : ((snapWord a 25).extractLsb' 0 2).setWidth 32 = snapWord a 25 :=
    setWidth_extractLsb' (Nat.lt_succ_of_le hcpl)
  refine Eq.trans ?_ (eq_snapWords hlen).symm
  rw [State.getState, heflags, State.setState, if_pos ((snapshotValid_iff a).mpr h)]
  simp only [snapSegment, Nat.reduceAdd, hselector 10 (by decide) (by decide), hselector 11 (by decide) (by decide),
    hselector 12 (by decide) (by decide), hselector 13 (by decide) (by decide), hselector 14 (by decide) (by decide),
    hselector 15 (by decide) (by decide), hnumber, hcodeSize, hstackSize, hlevel]
  rfl

/-- Settles O16: each field goes through its word and back, the EFLAGS word bit by bit. -/
theorem snapshotRoundTrips : Obligations.SnapshotRoundTrips := by
  refine ⟨fun _ => rfl, fun s ho hc => State.setState_getState ho hc, fun s a h => ⟨State.getState_setState h, ?_⟩,
    fun s a h => ?_⟩
  · rw [State.setState, if_pos ((snapshotValid_iff a).mpr h)]
  · rw [State.setState, if_neg (mt (snapshotValid_iff a).mp h)]

end Sys2Proof.Machine
end

section
/-! PROOFS. UnitProtocol, fourth part: what a unit that answers a next state leaves (40_unit_protocol.md R165, R166).
`exec_leaves` says once that it is a decode fault's state, a trap's, or a commit of an effect whose store is the
instruction's; that no instruction writes the system state, or memory outside its store, is read off it. Settles O27
and O30. -/

namespace Sys2Proof.Machine

open Sys2Proof.Claims

/-! ### What a unit leaves -/

/-- The states a unit of `i` can leave the state `s` in. -/
inductive Leaves (i : Instr) (s : State) : State → Prop
  | decodeFault (hk : Instr.kind i = .reserved) : Leaves i s (s.decodeFault .reserved)
  | trap (v : Nat) (c : Option Word) : Leaves i s (s.takeTrap v c)
  | commit (e : Effect) (hs : e.stores = stored i s) : Leaves i s (s.commit i.len e)

theorem askAll_bind_ok {s : State} {l : List Check} {e e' : Effect} (h : (askAll s l >>= fun _ => .ok e) = .ok e') :
    e' = e := by
  cases hask : askAll s l with
  | error x => simp [hask, bind, Except.bind] at h
  | ok u =>
    rw [hask] at h
    exact (Except.ok.inj h).symm

theorem exec_leaves {i : Instr} {s t : State} (ht : exec i s = .next t) : Leaves i s t := by
  by_cases hk : Instr.kind i = .reserved
  · obtain ⟨p, rfl⟩ := (Instr.kind_eq_reserved_iff i).mp hk
    obtain rfl := Host.Outcome.next.inj ht
    exact .decodeFault hk
  · obtain ⟨_, body, -, hexec, e, hbody, -, hstores⟩ := exec_runs i s hk
    obtain ⟨v, c, -, rfl⟩ | ⟨e', hok, -, rfl⟩ := runUnit_next (hexec ▸ ht)
    · exact .trap v c
    · obtain rfl := askAll_bind_ok (hbody ▸ hok)
      exact .commit e' hstores

/-! ### The system state (10_state.md R43, R45, R51) -/

/-- Settles O27: neither a decode fault, a trap nor a commit has a field of the system state to write. -/
theorem systemStateIsNeverWritten : Obligations.SystemStateIsNeverWritten := by
  intro i s t ht
  cases exec_leaves ht with
  | decodeFault | trap | commit => exact ⟨rfl, rfl, rfl, rfl, rfl, rfl, rfl, rfl⟩

/-! ### Memory (20_memory.md R77) -/

/-- A byte outside the store reads as before. -/
theorem Effect.read_mem_other (e : Effect) (m : Memory) (x : Word)
    (h : ∀ a n, e.stores = some (a, n) → ∀ k < n, x ≠ a + BitVec.ofNat 32 k) :
    Memory.read (e.mem m) x.toNat = Memory.read m x.toNat := by
  cases hs : e.store with
  | none => rw [e.mem_of_none m hs]
  | some w =>
    simp only [Effect.mem, hs]
    exact Memory.read_writeBytes_other m w.lin w.bytes x (h _ _ (by simp [Effect.stores, hs]))

/-- Settles O30: only a commit touches memory, and it stores the bytes `stored` names. -/
theorem otherMemoryUnchanged : Obligations.OtherMemoryUnchanged := by
  intro i s t x ht hx
  cases exec_leaves ht with
  | decodeFault | trap => rfl
  | commit e hs => exact e.read_mem_other s.mem x (hs ▸ hx)

end Sys2Proof.Machine
end

section
/-! PROOFS. UnitProtocol, fifth part: the step and the invariant (40_unit_protocol.md R165, R168, R175 to R183). A step
that enters a block is the step of the state with that block running (`step_enter`), so every claim about a step is one
about `runNext`; the invariant is one of the state between blocks and the running block's coherence (`State.wf_iff`).
Settles O19, O23, O24, O25 and O26. -/

namespace Sys2Proof.Machine

open Sys2Proof.Claims

/-! ### The step -/

/-- The next unit of a running block of the state's mode, at eip. -/
theorem runNext_of_todo {b : RunningBlock} {s : State} {u : InsnUnit} {rest : List InsnUnit} (hm : b.mode = s.mode)
    (htodo : b.todo = u :: rest) (hu : u.start = s.eip) :
    runNext b s = mapNext (settle b u rest) (exec u.instr s) := by
  rw [runNext, if_pos hm, htodo]
  simp only [if_pos hu]
  cases exec u.instr s <;> rfl

/-- Between blocks a step enters a block. -/
theorem step_between {s : State} (href : s.refused = none) (hb : s.block = none) (hend : s.ended = false) :
    step s = enterBlock s := by
  simp [step, href, hb, hend]

theorem step_running {s : State} {b : RunningBlock} (href : s.refused = none) (hb : s.block = some b) :
    step s = runNext b s := by
  simp [step, href, hb]

/-- A step that enters a block is the step of the state with the block running. -/
theorem step_enter {s : State} {u : InsnUnit} {rest : List InsnUnit} (href : s.refused = none) (hb : s.block = none)
    (hend : s.ended = false) (htf : s.tf = false) (hasm : s.assemble = .block u rest) :
    step s = step (s.enter (u :: rest)) := by
  rw [step_between href hb hend, step_running (s := s.enter _) href rfl, enterBlock, htf, hasm]
  rfl

theorem assemble_of_unit {s : State} {i : Instr} (hd : asUnit (s.decodeAt s.eip) = .ok i) :
    ∃ rest, s.assemble = .block ⟨s.eip, i⟩ rest := by
  rw [State.assemble, hd]
  exact ⟨_, rfl⟩

theorem asUnit_ok {i : Instr} (hk : Instr.kind i ≠ .reserved) : asUnit (.ok i) = .ok i := by
  cases h : Instr.kind i with
  | reserved => exact absurd h hk
  | plain | terminator => simp [asUnit, h]

/-- Settles O19: the entry is a step of the entered state, and that is the running block's next unit. -/
theorem stepRunsTheDecodedInstruction : Obligations.StepRunsTheDecodedInstruction := by
  refine ⟨fun s i href hb hend htf hd hk => ?_, fun s b i rest href hb hm htodo => ?_⟩
  · obtain ⟨rest, hasm⟩ := assemble_of_unit (s := s) (i := i) (by rw [hd, asUnit_ok hk])
    refine ⟨rest, hasm, ?_⟩
    rw [step_enter href hb hend htf hasm, step_running (s := s.enter _) href rfl, runNext_of_todo rfl rfl rfl]
    cases exec i (s.enter (⟨s.eip, i⟩ :: rest)) <;> rfl
  · rw [step_running href hb, runNext_of_todo hm htodo rfl]
    cases exec i s <;> rfl

/-! ### What stops at a block's entry (R168, R180, R183) -/

theorem assemble_of_stop {s : State} {e : DecodeStop} (hd : asUnit (s.decodeAt s.eip) = .error e) :
    s.assemble = (DecodeStop.split e).elim .fault .refuse := by
  rw [State.assemble, hd]
  cases e <;> rfl

theorem entry_of_fault {s : State} {k : DecodeFault} (href : s.refused = none) (hb : s.block = none)
    (hend : s.ended = false) (htf : s.tf = false) (hasm : s.assemble = .fault k) :
    step s = .next (s.decodeFault k) ∧ executeBlock s = s.decodeFault k := by
  rw [step_between href hb hend, enterBlock, executeBlock, href, htf, hasm]
  exact ⟨rfl, rfl⟩

theorem entry_of_refuse {s : State} {r : Refusal} (href : s.refused = none) (hb : s.block = none)
    (hend : s.ended = false) (htf : s.tf = false) (hasm : s.assemble = .refuse r) :
    step s = .refused r ∧ executeBlock s = s.refuse r := by
  rw [step_between href hb hend, enterBlock, executeBlock, href, htf, hasm]
  exact ⟨rfl, rfl⟩

theorem entry_of_tf {s : State} (href : s.refused = none) (hb : s.block = none) (hend : s.ended = false)
    (htf : s.tf = true) :
    step s = .refused .singleStepUnmodelled ∧ executeBlock s = s.refuse .singleStepUnmodelled := by
  rw [step_between href hb hend, enterBlock, executeBlock, href, htf]
  exact ⟨rfl, rfl⟩

/-- A first byte the oracle has no answer for stops the decoder at once. -/
theorem decodeAt_of_unmodelled {s : State} {off : Word} (h : s.access .fetch .cs off 1 = .unmodelled) :
    s.decodeAt off = .error .unmodelledMemory := by
  have hcells : s.fetchCells off maxInsnLen =
      .stop .unmodelledMemory :: s.fetchCells (off + 1) (maxInsnLen - 1) := by
    have hcell : s.fetchCell off = .stop .unmodelledMemory := by simp [State.fetchCell, h]
    rw [← hcell]
    rfl
  rw [State.decodeAt, hcells]
  rfl

/-- Settles O23: each stop by the answer of the assembler, or of the decoder, that raises it. -/
theorem entryStops : Obligations.EntryStops := by
  refine ⟨fun s r href => ?_, fun s href hb hend htf => entry_of_tf href hb hend htf,
    fun s k href hb hend htf hd => entry_of_fault href hb hend htf (assemble_of_stop hd),
    fun s e r href hb hend htf hd he => entry_of_refuse href hb hend htf ?_, fun s h => ?_,
    ⟨rfl, rfl, fun v c => ⟨rfl, rfl⟩⟩, fun p s => ⟨rfl, rfl⟩⟩
  · rw [step, executeBlock, href]
    exact ⟨rfl, rfl⟩
  · rw [assemble_of_stop hd]
    obtain ⟨b, rfl, rfl⟩ | ⟨rfl, rfl⟩ | ⟨rfl, rfl⟩ := he
    · rfl
    · rfl
    · rfl
  · rw [decodeAt_of_unmodelled h]
    rfl

/-! ### Blocks in sequence (R175, R177) -/

/-- A unit starts where the one before it ends. -/
theorem start_of_chained {start : Word} {l rest : List InsnUnit} {u v : InsnUnit}
    (h : chained start (l ++ u :: v :: rest) = true) : v.start = u.start + BitVec.ofNat 32 u.instr.len := by
  induction l generalizing start with
  | nil =>
    simp only [List.nil_append, chained, Bool.and_eq_true, beq_iff_eq] at h
    rw [h.1, h.2.1]
  | cons w l ih =>
    rw [List.cons_append, chained, Bool.and_eq_true] at h
    exact ih h.2

/-- Every unit but the last leaves the rest in sequence. -/
theorem endsAtTerminator_of_append {l m : List InsnUnit} (h : endsAtTerminator (l ++ m) = true) :
    endsAtTerminator m = true := by
  induction l with
  | nil => exact h
  | cons w l ih =>
    cases hl : l ++ m with
    | nil => simp [List.append_eq_nil_iff.mp hl, endsAtTerminator]
    | cons x k =>
      rw [List.cons_append, hl, endsAtTerminator, Bool.and_eq_true] at h
      exact ih (hl ▸ h.2)

theorem kind_of_endsAtTerminator {u v : InsnUnit} {l rest : List InsnUnit}
    (h : endsAtTerminator (l ++ u :: v :: rest) = true) : Instr.kind u.instr = .plain := by
  have hu := endsAtTerminator_of_append h
  simp only [endsAtTerminator, Bool.and_eq_true, beq_iff_eq] at hu
  exact hu.1

/-- No unit of a block is the reserved UD2. -/
theorem kind_ne_of_endsAtTerminator {u : InsnUnit} {l rest : List InsnUnit}
    (h : endsAtTerminator (l ++ u :: rest) = true) : Instr.kind u.instr ≠ .reserved := by
  cases rest with
  | nil => simpa [endsAtTerminator] using endsAtTerminator_of_append h
  | cons v rest => simp [kind_of_endsAtTerminator h]

namespace Assembles

variable {s : State} {n : Nat} {off : Word} {l : List InsnUnit}

theorem chained (h : Assembles s n off l) : Machine.chained off l = true := by
  induction h with
  | full | stop => rfl
  | last => simp [Machine.chained]
  | more _ _ _ ih => simp [Machine.chained, ih]

theorem endsAtTerminator (h : Assembles s n off l) : Machine.endsAtTerminator l = true := by
  induction h with
  | full | stop => rfl
  | last n hd hk => simp [Machine.endsAtTerminator, hk]
  | @more n off i l hd hk hl ih =>
    cases l with
    | nil => simp [Machine.endsAtTerminator, hk]
    | cons v l => simp [Machine.endsAtTerminator, hk, ih]

end Assembles

/-! ### The invariant -/

theorem RunningBlock.coherent_iff (b : RunningBlock) (s : State) : b.coherent s = true ↔
    ∃ u rest, b.todo = u :: rest ∧ u.start = s.eip ∧ b.mode = s.mode ∧ chained b.entry (b.done ++ u :: rest) = true ∧
      endsAtTerminator (b.done ++ u :: rest) = true ∧ s.report = none := by
  cases h : b.todo with
  | nil => simp [RunningBlock.coherent, h]
  | cons u rest =>
    simp only [RunningBlock.coherent, h, Bool.and_eq_true, beq_iff_eq, List.head?_cons, Option.map_some,
      Option.some.injEq, List.cons.injEq]
    constructor
    · rintro ⟨⟨⟨⟨hm, hc⟩, he⟩, hu⟩, hr⟩
      exact ⟨u, rest, ⟨rfl, rfl⟩, hu, hm, hc, he, hr⟩
    · rintro ⟨_, _, ⟨rfl, rfl⟩, hu, hm, hc, he, hr⟩
      exact ⟨⟨⟨⟨hm, hc⟩, he⟩, hu⟩, hr⟩

/-- The invariant of a state between blocks, and the coherence of the running block. -/
theorem State.wf_iff (s : State) : s.wf = true ↔
    { s with block := none }.wf = true ∧ ∀ b, s.block = some b → b.coherent s = true := by
  cases hb : s.block <;> simp [State.wf, hb]

/-- Settles O24: at reset every part of the invariant but the parameters' is a fact about literals. -/
theorem invariantAtReset : Obligations.InvariantAtReset := by
  have hflags : ((0x00000002 : Word) &&& statusMask == 0) = true := by decide
  have hcpl : Mode.allowsCpl .real 0 = true := by decide
  have hwf : ∀ q : Params, q.wf = true → (State.resetWith q).wf = true := by
    intro q hq
    simp only [State.wf, Bool.and_eq_true]
    exact ⟨⟨⟨⟨rfl, hq⟩, hflags⟩, hcpl⟩, rfl⟩
  exact ⟨hwf Params.default (by decide), hwf⟩

theorem Effect.mem_wf (e : Effect) {m : Memory} (h : Memory.wf m = true) : Memory.wf (e.mem m) = true := by
  cases hs : e.store with
  | none => rwa [e.mem_of_none m hs]
  | some w =>
    simp only [Effect.mem, hs]
    exact Memory.writeBytes_wf w.lin w.bytes h

theorem exec_mem_wf {i : Instr} {s t : State} (ht : exec i s = .next t) (h : Memory.wf s.mem = true) :
    Memory.wf t.mem = true := by
  cases exec_leaves ht with
  | decodeFault | trap => exact h
  | commit e => exact e.mem_wf h

/-- A unit of a block changes neither the running block nor the report. -/
theorem exec_keeps_block {i : Instr} {s t : State} (ht : exec i s = .next t) (hk : Instr.kind i ≠ .reserved) :
    t.block = s.block ∧ t.report = s.report := by
  cases exec_leaves ht with
  | decodeFault h => exact absurd h hk
  | trap | commit => exact ⟨rfl, rfl⟩

/-- Every instruction keeps the invariant of a state between blocks. -/
theorem exec_keeps_wf {i : Instr} {s t : State} (ht : exec i s = .next t) (h : { s with block := none }.wf = true) :
    { t with block := none }.wf = true := by
  obtain ⟨hother, hmode, -, -, hcpl, -, hparams, -⟩ := systemStateIsNeverWritten i s t ht
  simp only [State.wf, Bool.and_eq_true, hother, hmode, hcpl, hparams] at h ⊢
  obtain ⟨⟨⟨⟨hmem, hp⟩, hf⟩, hc⟩, -⟩ := h
  exact ⟨⟨⟨⟨exec_mem_wf ht hmem, hp⟩, hf⟩, hc⟩, rfl⟩

/-- The block closes, or goes on with the unit after `u`. -/
theorem settle_eq (b : RunningBlock) (u : InsnUnit) (rest : List InsnUnit) (t : State) :
    settle b u rest t = if isTrap t.lastTag.blockEnd = true ∨ rest = [] then t.closeBlock b.done.length
      else { t with block := some { b with done := b.done ++ [u], todo := rest } } := by
  cases rest with
  | nil => cases h : t.lastTag <;> simp [settle, State.closeBlock, h, completed, Tag.blockEnd]
  | cons v rest => cases h : t.lastTag <;> simp [settle, State.closeBlock, h, completed, Tag.blockEnd, isTrap]

/-- A unit that completes with another after it leaves the block coherent: it is no terminator, so eip is past it. -/
theorem coherent_of_next {b : RunningBlock} {s t : State} {u v : InsnUnit} {rest : List InsnUnit}
    (hb : b.coherent s = true) (htodo : b.todo = u :: v :: rest) (ht : exec u.instr s = .next t)
    (htrap : isTrap t.lastTag.blockEnd = false) :
    RunningBlock.coherent { b with done := b.done ++ [u], todo := v :: rest } t = true := by
  obtain ⟨u', rest', htodo', hu, hm, hc, he, hr⟩ := (b.coherent_iff s).mp hb
  obtain ⟨rfl, rfl⟩ := List.cons.inj (htodo'.symm.trans htodo)
  have hkind := kind_of_endsAtTerminator he
  have hsplit : b.done ++ u' :: v :: rest = b.done ++ [u'] ++ v :: rest := by simp
  obtain ⟨-, hmode, -⟩ := systemStateIsNeverWritten _ s t ht
  obtain ⟨-, hreport⟩ := exec_keeps_block ht (by simp [hkind])
  refine (RunningBlock.coherent_iff _ t).mpr ⟨v, rest, rfl, ?_, hm.trans hmode.symm, hsplit ▸ hc, hsplit ▸ he,
    hreport.trans hr⟩
  rw [eip_of_plain ht hkind htrap, start_of_chained hc, hu, nextOf]

/-- The next unit of a coherent block is run. -/
theorem step_of_coherent {s : State} {b : RunningBlock} (href : s.refused = none) (hb : s.block = some b)
    (hco : b.coherent s = true) : ∃ u rest, b.todo = u :: rest ∧ Instr.kind u.instr ≠ .reserved ∧
      step s = mapNext (settle b u rest) (exec u.instr s) := by
  obtain ⟨u, rest, htodo, hu, hm, -, he, -⟩ := (b.coherent_iff s).mp hco
  exact ⟨u, rest, htodo, kind_ne_of_endsAtTerminator he, by rw [step_running href hb, runNext_of_todo hm htodo hu]⟩

theorem mapNext_eq_next {f : State → State} {o : Out} {t : State} (h : mapNext f o = .next t) :
    ∃ t', o = .next t' ∧ t = f t' := by
  cases o with
  | next t' => exact ⟨t', rfl, (Host.Outcome.next.inj h).symm⟩
  | fault f => cases h
  | refused r => cases h

/-- A step inside a block keeps the invariant. -/
theorem step_running_wf {s t : State} {b : RunningBlock} (hwf : s.wf = true) (href : s.refused = none)
    (hb : s.block = some b) (ht : step s = .next t) : t.wf = true := by
  obtain ⟨hbase, hblock⟩ := s.wf_iff.mp hwf
  obtain ⟨u, rest, htodo, -, hstep⟩ := step_of_coherent href hb (hblock b hb)
  obtain ⟨t', hexec, rfl⟩ := mapNext_eq_next (hstep ▸ ht)
  have hbase' := exec_keeps_wf hexec hbase
  rw [settle_eq]
  split
  · exact hbase'
  · next hgo =>
    obtain ⟨htrap, hne⟩ := not_or.mp hgo
    obtain ⟨v, rest, rfl⟩ := List.exists_cons_of_ne_nil hne
    refine (State.wf_iff _).mpr ⟨hbase', fun b' hb' => ?_⟩
    obtain rfl := Option.some.inj hb'
    exact coherent_of_next (t := t') (hblock b hb) htodo hexec (Bool.eq_false_iff.mpr htrap)

/-- An entered block is coherent. -/
theorem coherent_enter {s : State} {u : InsnUnit} {rest : List InsnUnit} (hasm : s.assemble = .block u rest) :
    RunningBlock.coherent ⟨s.eip, s.mode, [], u :: rest⟩ (s.enter (u :: rest)) = true := by
  have h := assemble_assembles hasm
  exact (RunningBlock.coherent_iff _ _).mpr ⟨u, rest, rfl, h.head_start rfl, rfl, h.chained, h.endsAtTerminator, rfl⟩

theorem State.enter_wf {s : State} {u : InsnUnit} {rest : List InsnUnit} (hwf : s.wf = true)
    (hasm : s.assemble = .block u rest) : (s.enter (u :: rest)).wf = true := by
  refine (State.wf_iff _).mpr ⟨(s.wf_iff.mp hwf).1, fun b hb => ?_⟩
  obtain rfl := Option.some.inj hb
  exact coherent_enter hasm

/-- The steps there are: a refusal, the end of the run, a unit of the running block, and the entry of a block, where TF
or what the assembler answers decides. -/
theorem step_cases (s : State) :
    (∃ r, step s = .refused r) ∨ (step s = .fault .runEnded ∧ s.ended = true) ∨
      (s.refused = none ∧ ∃ b, s.block = some b) ∨ (∃ k, step s = .next (s.decodeFault k)) ∨
        (s.refused = none ∧ ∃ u rest, s.assemble = .block u rest ∧ step s = step (s.enter (u :: rest))) := by
  cases href : s.refused with
  | some r => exact .inl ⟨r, by simp [step, href]⟩
  | none =>
    cases hb : s.block with
    | some b => exact .inr (.inr (.inl ⟨rfl, b, rfl⟩))
    | none =>
      cases hend : s.ended with
      | true => exact .inr (.inl ⟨by simp [step, href, hb, hend], rfl⟩)
      | false =>
        cases htf : s.tf with
        | true => exact .inl ⟨_, (entry_of_tf href hb hend htf).1⟩
        | false =>
          cases hasm : s.assemble with
          | refuse r => exact .inl ⟨r, (entry_of_refuse href hb hend htf hasm).1⟩
          | fault k => exact .inr (.inr (.inr (.inl ⟨k, (entry_of_fault href hb hend htf hasm).1⟩)))
          | block u rest => exact .inr (.inr (.inr (.inr ⟨rfl, u, rest, rfl, step_enter href hb hend htf hasm⟩)))

/-- Settles O25: a step inside a block keeps the invariant, and an entry is one from the block just entered. -/
theorem everyStepKeepsTheInvariant : Obligations.EveryStepKeepsTheInvariant := by
  intro s t hwf ht
  obtain ⟨r, h⟩ | ⟨h, -⟩ | ⟨href, b, hb⟩ | ⟨k, h⟩ | ⟨href, u, rest, hasm, h⟩ := step_cases s
  · simp [h] at ht
  · simp [h] at ht
  · exact step_running_wf hwf href hb ht
  · obtain rfl := Host.Outcome.next.inj (h.symm.trans ht)
    exact (s.wf_iff.mp hwf).1
  · exact step_running_wf (State.enter_wf hwf hasm) href rfl (h ▸ ht)

/-- Inside a coherent block a step does not fault. -/
theorem step_running_ne_fault {s : State} {b : RunningBlock} (href : s.refused = none) (hb : s.block = some b)
    (hco : b.coherent s = true) (f : Fault) : step s ≠ .fault f := by
  obtain ⟨u, rest, -, hkind, hstep⟩ := step_of_coherent href hb hco
  have hne := exec_ne_fault hkind s f
  rw [hstep]
  cases h : exec u.instr s with
  | next t => simp [mapNext]
  | refused r => simp [mapNext]
  | fault g => exact fun hf => hne (h.trans hf)

/-- Settles O26: a coherent block has a unit of the state's mode at eip, and no unit faults. -/
theorem invariantExcludesInternalFaults : Obligations.InvariantExcludesInternalFaults := by
  intro s f hwf hf
  obtain ⟨r, h⟩ | ⟨h, hend⟩ | ⟨href, b, hb⟩ | ⟨k, h⟩ | ⟨href, u, rest, hasm, h⟩ := step_cases s
  · simp [h] at hf
  · exact ⟨(Host.Outcome.fault.inj (h.symm.trans hf)).symm, hend⟩
  · exact absurd hf (step_running_ne_fault href hb ((s.wf_iff.mp hwf).2 b hb) f)
  · simp [h] at hf
  · exact absurd (h ▸ hf) (step_running_ne_fault (s := s.enter _) href rfl (coherent_enter hasm) f)

end Sys2Proof.Machine
end

section
/-! PROOFS. UnitProtocol, sixth part: what of the state a unit reads (10_state.md R43, R46 to R48; 40_unit_protocol.md
R180). The body of an instruction reads nothing of eflagsOther, codeSize32 and the running block, the mode and stackSize32
only as the stack's width, and the mode and cpl only for HLT (`exec_same`); so a change of those fields passes through
`exec` (`Passes.exec_eq`). A unit of a block therefore does the same however many units of the block are done, which
makes the steps of a block its run. Settles O20 and O34. -/

namespace Sys2Proof.Machine

open Sys2Proof.Claims

/-! ### What a body reads -/

/-- The states differ in system fields alone. -/
def SameFields (s s' : State) : Prop :=
  ∃ (o : Word) (d : Bool) (m : Mode) (w : Bool) (c : BitVec 2) (b : Option RunningBlock), s' =
    { s with eflagsOther := o, codeSize32 := d, mode := m, stackSize32 := w, cpl := c, block := b }

/-- The states differ only in system fields that the unit of `i` does not read. -/
structure SameFor (i : Instr) (s s' : State) : Prop where
  fields : SameFields s s'
  stack : usesStack i = true → s'.stackWide = s.stackWide
  hlt : isHlt i = true → s'.mode = s.mode ∧ s'.cpl = s.cpl

theorem SameFields.readRef {s s' : State} (hf : SameFields s s') (z : Size) (r : Ref) :
    s'.readRef z r = s.readRef z r := by
  obtain ⟨o, d, m, w, c, b, rfl⟩ := hf
  rfl

theorem SameFields.relTarget {s s' : State} (hf : SameFields s s') (p : Prefixes) (len : Nat) (rel : Word) :
    s'.relTarget p len rel = s.relTarget p len rel := by
  obtain ⟨o, d, m, w, c, b, rfl⟩ := hf
  rfl

theorem State.setSp_of_stackWide {s s' : State} (hw : s'.stackWide = s.stackWide) (t : Word) (e : Effect) :
    s'.setSp t e = s.setSp t e := by
  simp only [State.setSp, hw]

section Stack

variable {s s' : State} (hf : SameFields s s') (hw : s'.stackWide = s.stackWide)
include hf hw

theorem SameFields.sp : s'.sp = s.sp := by
  obtain ⟨o, d, m, w, c, b, rfl⟩ := hf
  simp only [State.sp, State.truncSp, hw]

theorem SameFields.popSp (n k : Nat) : s'.popSp n k = s.popSp n k := by
  simp only [State.popSp, State.truncSp, hf.sp hw, hw]

theorem SameFields.popRead (z : Size) : s'.popRead z = s.popRead z := by
  rw [State.popRead, hf.sp hw]
  obtain ⟨o, d, m, w, c, b, rfl⟩ := hf
  rfl

theorem SameFields.push (z : Size) (v : BitVec z.bits) :
    s'.push z v (Effect.start s') = s.push z v (Effect.start s) := by
  have hsp : s'.pushSp z.bytes = s.pushSp z.bytes := by simp only [State.pushSp, State.truncSp, hf.sp hw, hw]
  simp only [State.push, hsp, State.setSp_of_stackWide hw]
  obtain ⟨o, d, m, w, c, b, rfl⟩ := hf
  rfl

theorem SameFields.pushBody {z : Size} {src src' : Except Stop (BitVec z.bits)} (hsrc : src' = src) :
    pushBody z src' s' = pushBody z src s := by
  simp only [Machine.pushBody, hsrc, hf.push hw]

theorem SameFields.popBody (z : Size) (r : Reg) : popBody z r s' = popBody z r s := by
  simp only [Machine.popBody, hf.popRead hw, State.setSp_of_stackWide hw, hf.popSp hw]
  obtain ⟨o, d, m, w, c, b, rfl⟩ := hf
  rfl

theorem SameFields.callBody {p : Prefixes} {len : Nat} {t t' : Word} (ht : t' = t) :
    callBody p len t' s' = callBody p len t s := by
  subst ht
  have heip : s'.eip = s.eip := by obtain ⟨o, d, m, w, c, b, rfl⟩ := hf; rfl
  simp only [Machine.callBody, State.nextEip, heip, hf.push hw]
  obtain ⟨o, d, m, w, c, b, rfl⟩ := hf
  rfl

theorem SameFields.callRefBody (p : Prefixes) (len : Nat) (r : Ref) :
    callRefBody p len r s' = callRefBody p len r s := by
  simp only [Machine.callRefBody, hf.readRef, hf.callBody hw rfl]

theorem SameFields.retBody (p : Prefixes) (k : Nat) : retBody p k s' = retBody p k s := by
  simp only [Machine.retBody, hf.popRead hw, State.setSp_of_stackWide hw, hf.popSp hw]
  obtain ⟨o, d, m, w, c, b, rfl⟩ := hf
  rfl

end Stack

theorem SameFields.hltBody {s s' : State} (hf : SameFields s s') (h : s'.mode = s.mode ∧ s'.cpl = s.cpl) :
    hltBody s' = hltBody s := by
  rw [Machine.hltBody, Machine.hltBody, h.1, h.2]
  obtain ⟨o, d, m, w, c, b, rfl⟩ := hf
  rfl

/-- The units in both states run one body. -/
def SameBody (i : Instr) (s s' : State) : Prop :=
  ∃ body, exec i s = runUnit i.len body s ∧ exec i s' = runUnit i.len body s'

/-- A body that uses no stack and is not HLT's reads no system field. -/
theorem exec_same_fields {i : Instr} (hk : Instr.kind i ≠ .reserved) (hstack : usesStack i = false)
    (hhlt : isHlt i = false) (s : State) (o : Word) (d : Bool) (m : Mode) (w : Bool) (c : BitVec 2)
    (b : Option RunningBlock) : SameBody i s
      { s with eflagsOther := o, codeSize32 := d, mode := m, stackSize32 := w, cpl := c, block := b } := by
  cases i with
  | ud2 => exact absurd rfl hk
  | pushRv | pushRmv | pushImmz | pushImm8 | popRv | callRelz | callRmv | ret | retImm16 => cases hstack
  | hlt => cases hhlt
  | addAlImm8 | addEaxImmz | adcAlImm8 | adcEaxImmz | subAlImm8 | subEaxImmz | sbbAlImm8 | sbbEaxImmz | andAlImm8
  | andEaxImmz | orAlImm8 | orEaxImmz | xorAlImm8 | xorEaxImmz => exact ⟨aluBody _ _ (.reg .eax) (.ok _) s, rfl, rfl⟩
  | cmpAlImm8 | testAlImm8 => exact ⟨compareBody _ .s8 (.reg .eax) (.ok _) s, rfl, rfl⟩
  | cmpEaxImmz | testEaxImmz => exact ⟨compareBody _ _ (.reg .eax) (.ok _) s, rfl, rfl⟩
  | incRv _ r | decRv _ r => exact ⟨unaryBody _ _ (.reg r) s, rfl, rfl⟩
  | movR8Imm8 _ r | movRvImmz _ r => exact ⟨moveBody _ (.reg r) (.ok _) s, rfl, rfl⟩
  | xchgEaxEcx | xchgEaxEdx | xchgEaxEbx | xchgEaxEsp | xchgEaxEbp | xchgEaxEsi | xchgEaxEdi =>
    exact ⟨xchgBody _ (.reg .eax) _ s, rfl, rfl⟩
  | leaRvM => exact ⟨leaBody _ _ _ s, rfl, rfl⟩
  | nop => exact ⟨.ok (Effect.start s), rfl, rfl⟩
  | clc | stc | cmc => exact ⟨flagBody _ s, rfl, rfl⟩
  | _ =>
    refine ⟨_, rfl, ?_⟩
    rfl

/-- In states that are the same for an instruction its unit runs the same body. -/
theorem exec_same {i : Instr} (hk : Instr.kind i ≠ .reserved) {s s' : State} (h : SameFor i s s') :
    SameBody i s s' := by
  obtain ⟨hf, hstack, hhlt⟩ := h
  cases i with
  | pushRv | pushRmv => exact ⟨_, rfl, congrArg (runUnit _ · s') (hf.pushBody (hstack rfl) (hf.readRef _ _))⟩
  | pushImmz | pushImm8 => exact ⟨_, rfl, congrArg (runUnit _ · s') (hf.pushBody (hstack rfl) rfl)⟩
  | popRv => exact ⟨_, rfl, congrArg (runUnit _ · s') (hf.popBody (hstack rfl) _ _)⟩
  | callRelz => exact ⟨_, rfl, congrArg (runUnit _ · s') (hf.callBody (hstack rfl) (hf.relTarget _ _ _))⟩
  | callRmv => exact ⟨_, rfl, congrArg (runUnit _ · s') (hf.callRefBody (hstack rfl) _ _ _)⟩
  | ret | retImm16 => exact ⟨_, rfl, congrArg (runUnit _ · s') (hf.retBody (hstack rfl) _ _)⟩
  | hlt => exact ⟨_, rfl, congrArg (runUnit _ · s') (hf.hltBody (hhlt rfl))⟩
  | _ =>
    obtain ⟨o, d, m, w, c, b, rfl⟩ := hf
    exact exec_same_fields hk rfl rfl s o d m w c b

/-- A change of the state that the unit of `i` does not see, and that a trap and a commit keep. -/
structure Passes (i : Instr) (f : State → State) (s : State) : Prop where
  same : SameFor i s (f s)
  hits : ∀ a n, (f s).hitsBlock a n = s.hitsBlock a n
  trap : ∀ v c, (f s).takeTrap v c = f (s.takeTrap v c)
  commit : ∀ len e, (f s).commit len e = f (s.commit len e)

theorem Passes.effect_hits {i : Instr} {f : State → State} {s : State} (h : Passes i f s) (e : Effect) :
    e.hitsBlock (f s) = e.hitsBlock s := by
  unfold Effect.hitsBlock
  cases e.store with
  | none => rfl
  | some w => exact h.hits _ _

theorem Passes.exec_eq {i : Instr} {f : State → State} {s : State} (h : Passes i f s)
    (hk : Instr.kind i ≠ .reserved) : exec i (f s) = mapNext f (exec i s) := by
  obtain ⟨body, hx, hx'⟩ := exec_same hk h.same
  rw [hx, hx']
  cases body with
  | error x =>
    cases x with
    | trap v c => exact congrArg _ (h.trap v c)
    | refuse r => rfl
  | ok e =>
    rw [runUnit, runUnit, h.effect_hits]
    split
    · rfl
    · exact congrArg _ (h.commit _ e)

/-- When a decode fault keeps the change as well, it passes through every instruction. -/
theorem Passes.exec_eq_of_decodeFault {i : Instr} {f : State → State} {s : State} (h : Passes i f s)
    (hfault : (f s).decodeFault .reserved = f (s.decodeFault .reserved)) : exec i (f s) = mapNext f (exec i s) := by
  by_cases hk : Instr.kind i = .reserved
  · obtain ⟨p, rfl⟩ := (Instr.kind_eq_reserved_iff i).mp hk
    exact congrArg _ hfault
  · exact h.exec_eq hk

/-! ### The mode, the sizes and cpl (10_state.md R43, R46 to R48) -/

/-- Settles O34: each clause changes fields that the unit does not read, and trap, commit and decode fault keep them. -/
theorem modeBearsOnlyOnStackAndHlt : Obligations.ModeBearsOnlyOnStackAndHlt := by
  refine ⟨fun i s o d => ?_, fun i s c hi => ?_, fun i s m w hi hu => ?_, fun i s w hm => ?_⟩
  · have h : SameFor i s { s with eflagsOther := o, codeSize32 := d } :=
      ⟨⟨_, _, _, _, _, _, rfl⟩, fun _ => rfl, fun _ => ⟨rfl, rfl⟩⟩
    exact Passes.exec_eq_of_decodeFault (f := fun t => { t with eflagsOther := o, codeSize32 := d })
      ⟨h, fun _ _ => rfl, fun _ _ => rfl, fun _ _ => rfl⟩ rfl
  · have h : SameFor i s { s with cpl := c } := ⟨⟨_, _, _, _, _, _, rfl⟩, fun _ => rfl, by simp [hi]⟩
    exact Passes.exec_eq_of_decodeFault (f := fun t => { t with cpl := c })
      ⟨h, fun _ _ => rfl, fun _ _ => rfl, fun _ _ => rfl⟩ rfl
  · have h : SameFor i s { s with mode := m, stackSize32 := w } :=
      ⟨⟨_, _, _, _, _, _, rfl⟩, by simp [hu], by simp [hi]⟩
    exact Passes.exec_eq_of_decodeFault (f := fun t => { t with mode := m, stackSize32 := w })
      ⟨h, fun _ _ => rfl, fun _ _ => rfl, fun _ _ => rfl⟩ rfl
  · have hwide : { s with stackSize32 := w }.stackWide = s.stackWide := by
      simp [State.stackWide, beq_eq_false_iff_ne.mpr hm]
    have h : SameFor i s { s with stackSize32 := w } := ⟨⟨_, _, _, _, _, _, rfl⟩, fun _ => hwide, fun _ => ⟨rfl, rfl⟩⟩
    exact Passes.exec_eq_of_decodeFault (f := fun t => { t with stackSize32 := w })
      ⟨h, fun _ _ => rfl, fun _ _ => rfl, fun _ _ => rfl⟩ rfl

/-! ### The steps of a block are its run (40_unit_protocol.md R165, R180) -/

/-- The state with another block running. -/
def State.running (s : State) (b : RunningBlock) : State := { s with block := some b }

/-- A unit does the same whichever units of the block are done. -/
theorem exec_running {i : Instr} (hk : Instr.kind i ≠ .reserved) {s : State} {b b' : RunningBlock}
    (hb : s.block = some b) (hunits : b'.done ++ b'.todo = b.done ++ b.todo) :
    exec i (s.running b') = mapNext (·.running b') (exec i s) := by
  have hhits : ∀ a n, (s.running b').hitsBlock a n = s.hitsBlock a n := by
    intro a n
    simp [State.hitsBlock, State.running, hb, hunits, State.lin]
  exact Passes.exec_eq (f := (·.running b'))
    ⟨⟨⟨_, _, _, _, _, _, rfl⟩, fun _ => rfl, fun _ => ⟨rfl, rfl⟩⟩, hhits, fun _ _ => rfl, fun _ _ => rfl⟩ hk

/-- A step that leaves no block running is the last. -/
theorem runBlock_of_last {s t : State} (h : step s = .next t) (hb : t.block = none) (n : Nat) :
    runBlock (n + 1) s = t := by
  simp [runBlock, h, hb]

theorem runBlock_of_more {s t : State} {b : RunningBlock} (h : step s = .next t) (hb : t.block = some b) (n : Nat) :
    runBlock (n + 1) s = runBlock n t := by
  simp [runBlock, h, hb]

theorem runBlock_of_refused {s : State} {r : Refusal} (h : step s = .refused r) (n : Nat) :
    runBlock (n + 1) s = s.refuse r := by
  rw [runBlock, h]

/-- The steps of a running block, with room for its units, are the run of the units still to do. -/
theorem runBlock_eq_runUnits {n : Nat} {s : State} {b b' : RunningBlock} (href : s.refused = none)
    (hb : s.block = some b) (hco : b.coherent s = true) (hunits : b'.done ++ b'.todo = b.done ++ b.todo)
    (hn : b.todo.length ≤ n) : runBlock n s = runUnits b.done.length b.todo (s.running b') := by
  induction n generalizing s b with
  | zero =>
    obtain ⟨u, rest, htodo, -⟩ := step_of_coherent href hb hco
    simp [htodo] at hn
  | succ n ih =>
    obtain ⟨u, rest, htodo, hk, hstep⟩ := step_of_coherent href hb hco
    have hrun := exec_running hk hb hunits
    cases ht : exec u.instr s with
    | fault f => exact absurd ht (exec_ne_fault hk s f)
    | refused r =>
      rw [ht] at hstep hrun
      rw [runBlock_of_refused hstep, htodo, runUnits, hrun]
      rfl
    | next t =>
      have hrunUnits := runUnits_of_next (k := b.done.length) (rest := rest) (t := t.running b') (by rw [hrun, ht]; rfl)
      have hstep' : step s = .next (settle b u rest t) := by rw [hstep, ht]; rfl
      rw [settle_eq] at hstep'
      rw [htodo, hrunUnits]
      by_cases hend : isTrap t.lastTag.blockEnd = true ∨ rest = []
      · rw [if_pos hend] at hstep'
        exact (runBlock_of_last hstep' rfl n).trans (if_pos hend).symm
      · rw [if_neg hend] at hstep'
        obtain ⟨htrap, hne⟩ := not_or.mp hend
        obtain ⟨v, rest, rfl⟩ := List.exists_cons_of_ne_nil hne
        have href' : t.refused = none := by
          obtain ⟨-, -, -, -, -, -, -, h⟩ := systemStateIsNeverWritten _ s t ht
          rw [h, href]
        have hco' := coherent_of_next hco htodo ht (Bool.eq_false_iff.mpr htrap)
        have hgo := ih (s := t.running { b with done := b.done ++ [u], todo := v :: rest }) href' rfl hco'
          (by simp [hunits, htodo]) (by simpa [htodo] using hn)
        rw [List.length_append] at hgo
        exact (runBlock_of_more hstep' rfl n).trans (hgo.trans (if_neg hend).symm)

theorem runBlock_enter {s : State} {u : InsnUnit} {rest : List InsnUnit} (href : s.refused = none) (hb : s.block = none)
    (hend : s.ended = false) (htf : s.tf = false) (hasm : s.assemble = .block u rest) (n : Nat) :
    runBlock (n + 1) s = runBlock (n + 1) (s.enter (u :: rest)) := by
  have hstep := step_enter href hb hend htf hasm
  have hne := step_running_ne_fault (s := s.enter _) href rfl (coherent_enter hasm)
  rw [runBlock, runBlock, hstep]
  cases h : step (s.enter (u :: rest)) with
  | next t => rfl
  | refused r => rfl
  | fault f => exact absurd h (hne f)

/-- Settles O20: the step that enters a block is the first of the block's own steps. -/
theorem executeBlockIsItsSteps : Obligations.ExecuteBlockIsItsSteps := by
  intro s hwf href hb hend
  have hpos : 1 ≤ s.params.maxBlockLen := by simpa [Params.wf] using hwf
  obtain ⟨n, hn⟩ := Nat.exists_eq_add_one.mpr hpos
  rw [hn]
  cases htf : s.tf with
  | true =>
    obtain ⟨hstep, hx⟩ := entry_of_tf href hb hend htf
    rw [hx, runBlock_of_refused hstep]
  | false =>
    cases hasm : s.assemble with
    | refuse r =>
      obtain ⟨hstep, hx⟩ := entry_of_refuse href hb hend htf hasm
      rw [hx, runBlock_of_refused hstep]
    | fault k =>
      obtain ⟨hstep, hx⟩ := entry_of_fault href hb hend htf hasm
      rw [hx, runBlock_of_last hstep rfl]
    | block u rest =>
      have hlen : (u :: rest).length ≤ n + 1 := by
        have := (assemble_assembles hasm).length_le
        omega
      rw [runBlock_enter href hb hend htf hasm,
        runBlock_eq_runUnits (s := s.enter (u :: rest)) href rfl (coherent_enter hasm) rfl hlen, executeBlock, href,
        htf, hasm]
      rfl

end Sys2Proof.Machine
end

section
/-! PROOFS. State, fifth part: which registers an instruction writes (10_state.md R31 to R35). `StagesIn w` says that a
body stages no register but those of `w`; it is proved from a body's parts, so each shared body has one lemma, and
`exec_writes` names the body of each instruction. Settles O28. -/

namespace Sys2Proof.Machine

open Sys2Proof.Claims

/-! ### Register files that agree outside some registers -/

/-- The register files agree on every register but those of `w`. -/
def SameBut (w : List Reg) (g g' : Gprs) : Prop := ∀ r, r ∉ w → g'.get r = g.get r

namespace SameBut

variable {w : List Reg} {g g' : Gprs}

theorem refl (w : List Reg) (g : Gprs) : SameBut w g g := fun _ _ => rfl

theorem trans {g'' : Gprs} (h : SameBut w g g') (h' : SameBut w g' g'') : SameBut w g g'' :=
  fun r hr => (h' r hr).trans (h r hr)

theorem set (h : SameBut w g g') {r : Reg} (hr : r ∈ w) (v : Word) : SameBut w g (g'.set r v) :=
  h.trans fun _ hq => Gprs.get_set_other g' v fun e => hq (e ▸ hr)

theorem setView (h : SameBut w g g') {z : Size} {r : Reg} (hr : Reg.home z r ∈ w) (v : BitVec z.bits) :
    SameBut w g (g'.setView z r v) :=
  h.trans fun _ hq => Gprs.get_setView_other g' z v fun e => hq (e ▸ hr)

theorem setDouble (h : SameBut w g g') {z : Size} (ha : Reg.eax ∈ w) (hd : z = .s8 ∨ Reg.edx ∈ w) (p : Int) :
    SameBut w g (g'.setDouble z p) := by
  cases z with
  | s8 => exact h.setView (z := .s16) ha _
  | s16 => exact (h.setView (z := .s16) ha _).setView (z := .s16) (hd.resolve_left (by decide)) _
  | s32 => exact (h.set ha _).set (hd.resolve_left (by decide)) _

theorem setQuotRem (h : SameBut w g g') {z : Size} (ha : Reg.eax ∈ w) (hd : z = .s8 ∨ Reg.edx ∈ w) (q r : Int) :
    SameBut w g (g'.setQuotRem z q r) := by
  cases z with
  | s8 => exact (h.setView (z := .s8) (r := .eax) ha _).setView (z := .s8) (r := .esp) ha _
  | s16 => exact (h.setView (z := .s16) ha _).setView (z := .s16) (hd.resolve_left (by decide)) _
  | s32 => exact (h.set ha _).set (hd.resolve_left (by decide)) _

end SameBut

/-! ### The register an operand lies in -/

theorem regHome_eq (z : Size) (r : Reg) : regHome z r = Reg.home z r := by
  cases z with
  | s8 => cases r <;> rfl
  | s16 | s32 => rfl

theorem home_opSize (z : OpSize) (r : Reg) : Reg.home z.size r = r := by cases z <;> rfl

/-- The registers a write to the operand may change are among `w`. -/
def HomeIn (w : List Reg) (z : Size) : Ref → Prop
  | .reg r => Reg.home z r ∈ w
  | .mem _ _ => True

theorem homeIn_rm (p : Prefixes) (z : Size) (rm : Rm) {w : List Reg} (h : rmHome z rm ⊆ w) :
    HomeIn w z (rmRef p rm) := by
  cases rm with
  | reg r => exact h (by simp [rmHome, regHome_eq])
  | mem m => trivial

theorem homeIn_rmHome (p : Prefixes) (z : Size) (rm : Rm) : HomeIn (rmHome z rm) z (rmRef p rm) :=
  homeIn_rm p z rm fun _ h => h

theorem homeIn_opSize (z : OpSize) {r : Reg} {w : List Reg} (h : r ∈ w) : HomeIn w z.size (.reg r) := by
  rwa [HomeIn, home_opSize]

theorem homeIn_byte (r : Reg) : HomeIn [regHome .s8 r] .s8 (.reg r) := by
  rw [regHome_eq]
  exact List.mem_singleton_self _

/-! ### Bodies -/

/-- The body stages no register but those of `w`. -/
def StagesIn (w : List Reg) (s : State) (body : Except Stop Effect) : Prop :=
  ∀ e, body = .ok e → SameBut w s.gpr e.gpr

theorem SameBut.put {w : List Reg} {s : State} {e : Effect} {z : Size} {ref : Ref} (h : SameBut w s.gpr e.gpr)
    (hr : HomeIn w z ref) (v : BitVec z.bits) : SameBut w s.gpr (Effect.put s z ref v e).gpr := by
  cases ref with
  | reg r => exact h.setView hr v
  | mem g ea => exact h

theorem SameBut.setSp {w : List Reg} {s : State} {e : Effect} (h : SameBut w s.gpr e.gpr) (hr : Reg.esp ∈ w)
    (t : Word) : SameBut w s.gpr (s.setSp t e).gpr := by
  unfold State.setSp
  split
  · exact h.set hr t
  · exact h.setView (z := .s16) hr _

theorem StagesIn.ok {w : List Reg} {s : State} {e : Effect} (h : SameBut w s.gpr e.gpr) : StagesIn w s (.ok e) := by
  intro e' he
  rwa [← Except.ok.inj he]

section Bodies

variable {w : List Reg} {s : State} {z : Size}

theorem aluBody_stages {op : AluOp} {dst : Ref} {src : Except Stop (BitVec z.bits)} (hw : HomeIn w z dst) :
    StagesIn w s (aluBody op z dst src s) := by
  intro e he
  obtain ⟨b, -, -, rfl⟩ := aluBody_ok he
  exact .put (.refl w s.gpr) hw _

theorem compareBody_stages {op : AluOp} {a : Ref} {src : Except Stop (BitVec z.bits)} :
    StagesIn w s (compareBody op z a src s) := by
  intro e he
  obtain ⟨b, -, -, rfl⟩ := compareBody_ok he
  exact .refl w s.gpr

theorem unaryBody_stages {op : UnaryOp} {dst : Ref} (hw : HomeIn w z dst) : StagesIn w s (unaryBody op z dst s) := by
  intro e he
  obtain ⟨-, rfl⟩ := unaryBody_ok he
  exact .put (.refl w s.gpr) hw _

theorem moveBody_stages {dst : Ref} {src : Except Stop (BitVec z.bits)} (hw : HomeIn w z dst) :
    StagesIn w s (moveBody z dst src s) := by
  intro e he
  obtain ⟨v, -, rfl⟩ := moveBody_ok he
  exact .put (.refl w s.gpr) hw v

theorem shiftBody_stages {op : ShiftOp} {dst : Ref} {c : Nat} (hw : HomeIn w z dst) :
    StagesIn w s (shiftBody op z dst c s) := by
  intro e he
  obtain ⟨-, ⟨-, rfl⟩ | ⟨o, -, rfl⟩⟩ := shiftBody_ok he
  · exact .refl w s.gpr
  · exact .put (.refl w s.gpr) hw _

theorem xchgBody_stages {op1 : Ref} {op2 : Reg} (h1 : HomeIn w z op1) (h2 : HomeIn w z (.reg op2)) :
    StagesIn w s (xchgBody z op1 op2 s) := by
  intro e he
  obtain ⟨-, rfl⟩ := xchgBody_ok he
  exact .put (.put (.refl w s.gpr) h1 _) h2 _

/-- MUL, IMUL, MOVZX, MOVSX: one operand is read, then registers are staged. -/
theorem readThen_stages {src : Ref} {k : BitVec z.bits → Effect} (h : ∀ v, SameBut w s.gpr (k v).gpr) :
    StagesIn w s (s.readRef z src >>= fun v => .ok (k v)) := by
  intro e he
  obtain ⟨-, rfl⟩ := readThen_ok he
  exact h _

theorem divBody_stages {src : Ref} (ha : Reg.eax ∈ w) (hd : z = .s8 ∨ Reg.edx ∈ w) :
    StagesIn w s (divBody z src s) := by
  intro e he
  obtain ⟨-, -, -, rfl⟩ := divBody_ok he
  exact .setQuotRem (.refl w s.gpr) ha hd _ _

theorem idivBody_stages {src : Ref} (ha : Reg.eax ∈ w) (hd : z = .s8 ∨ Reg.edx ∈ w) :
    StagesIn w s (idivBody z src s) := by
  intro e he
  obtain ⟨-, -, rfl⟩ := idivBody_ok he
  exact .setQuotRem (.refl w s.gpr) ha hd _ _

theorem cbwBody_stages (z : OpSize) : StagesIn [.eax] s (cbwBody z s) := by
  cases z with
  | w16 => exact .ok (.setView (z := .s16) (.refl _ s.gpr) (List.mem_singleton_self _) _)
  | w32 => exact .ok (.set (.refl _ s.gpr) (List.mem_singleton_self _) _)

theorem cwdBody_stages (z : OpSize) : StagesIn [.edx] s (cwdBody z s) := by
  cases z with
  | w16 => exact .ok (.setView (z := .s16) (.refl _ s.gpr) (List.mem_singleton_self _) _)
  | w32 => exact .ok (.set (.refl _ s.gpr) (List.mem_singleton_self _) _)

theorem pushBody_stages {src : Except Stop (BitVec z.bits)} : StagesIn [.esp] s (pushBody z src s) := by
  intro e he
  obtain ⟨v, -, rfl⟩ := pushBody_ok he
  exact .setSp (.refl _ s.gpr) (List.mem_singleton_self _) _

theorem popBody_stages {r : Reg} (hsp : Reg.esp ∈ w) (hr : HomeIn w z (.reg r)) : StagesIn w s (popBody z r s) := by
  intro e he
  obtain ⟨-, rfl⟩ := popBody_ok he
  exact .put (.setSp (.refl w s.gpr) hsp _) hr _

theorem jccBody_stages {cc : Cond} {t : Word} : StagesIn w s (jccBody cc t s) := by
  intro e he
  obtain ⟨-, rfl⟩ := jccBody_ok he
  exact .refl w s.gpr

theorem jmpBody_stages {t : Word} : StagesIn w s (jmpBody t s) := by
  intro e he
  obtain ⟨-, rfl⟩ := jmpBody_ok he
  exact .refl w s.gpr

theorem jmpRefBody_stages {p : Prefixes} {src : Ref} : StagesIn w s (jmpRefBody p src s) := by
  intro e he
  obtain ⟨-, -, rfl⟩ := jmpRefBody_ok he
  exact .refl w s.gpr

theorem callBody_stages {p : Prefixes} {len : Nat} {t : Word} : StagesIn [.esp] s (callBody p len t s) := by
  intro e he
  obtain ⟨-, rfl⟩ := callBody_ok he
  exact SameBut.setSp (s := s) (.refl _ s.gpr) (List.mem_singleton_self _) _

theorem callRefBody_stages {p : Prefixes} {len : Nat} {src : Ref} : StagesIn [.esp] s (callRefBody p len src s) :=
  fun e he => callBody_stages e (callRefBody_ok he).2

theorem retBody_stages {p : Prefixes} {k : Nat} : StagesIn [.esp] s (retBody p k s) := by
  intro e he
  obtain ⟨-, -, rfl⟩ := retBody_ok he
  exact SameBut.setSp (s := s) (.refl _ s.gpr) (List.mem_singleton_self _) _

theorem hltBody_stages : StagesIn w s (hltBody s) := by
  intro e he
  obtain ⟨-, rfl⟩ := hltBody_ok he
  exact .refl w s.gpr

end Bodies

/-! ### Every instruction -/

/-- A unit that answers a next state leaves every register but those of `w`. -/
def Writes (w : List Reg) (s : State) (o : Out) : Prop := ∀ t, o = .next t → SameBut w s.gpr t.gpr

theorem runUnit_writes {w : List Reg} {s : State} {len : Nat} {body : Except Stop Effect} (h : StagesIn w s body) :
    Writes w s (runUnit len body s) := by
  intro t ht
  obtain ⟨v, c, -, rfl⟩ | ⟨e, hok, -, rfl⟩ := runUnit_next ht
  · exact .refl w s.gpr
  · exact h e hok

theorem exec_writes (i : Instr) (s : State) : Writes (written i) s (exec i s) := by
  unfold exec
  cases i with
  | addRm8R8 | addRmvRv | addRm8Imm8 | addRmvImmz | addRmvImm8 | adcRm8R8 | adcRmvRv | adcRm8Imm8 | adcRmvImmz
  | adcRmvImm8 | subRm8R8 | subRmvRv | subRm8Imm8 | subRmvImmz | subRmvImm8 | sbbRm8R8 | sbbRmvRv | sbbRm8Imm8
  | sbbRmvImmz | sbbRmvImm8 | andRm8R8 | andRmvRv | andRm8Imm8 | andRmvImmz | andRmvImm8 | orRm8R8 | orRmvRv
  | orRm8Imm8 | orRmvImmz | orRmvImm8 | xorRm8R8 | xorRmvRv | xorRm8Imm8 | xorRmvImmz | xorRmvImm8 =>
    exact runUnit_writes (aluBody_stages (homeIn_rmHome _ _ _))
  | addAlImm8 | adcAlImm8 | subAlImm8 | sbbAlImm8 | andAlImm8 | orAlImm8 | xorAlImm8 =>
    exact runUnit_writes (aluBody_stages (homeIn_byte .eax))
  | addEaxImmz | adcEaxImmz | subEaxImmz | sbbEaxImmz | andEaxImmz | orEaxImmz | xorEaxImmz | addRvRmv | adcRvRmv
  | subRvRmv | sbbRvRmv | andRvRmv | orRvRmv | xorRvRmv =>
    exact runUnit_writes (aluBody_stages (homeIn_opSize _ (List.mem_singleton_self _)))
  | addR8Rm8 | adcR8Rm8 | subR8Rm8 | sbbR8Rm8 | andR8Rm8 | orR8Rm8 | xorR8Rm8 =>
    exact runUnit_writes (aluBody_stages (homeIn_byte _))
  | cmpRm8R8 | cmpRmvRv | cmpR8Rm8 | cmpRvRmv | cmpAlImm8 | cmpEaxImmz | cmpRm8Imm8 | cmpRmvImmz | cmpRmvImm8
  | testRm8R8 | testRmvRv | testAlImm8 | testEaxImmz | testRm8Imm8 | testRmvImmz =>
    exact runUnit_writes compareBody_stages
  | incRv | decRv => exact runUnit_writes (unaryBody_stages (homeIn_opSize _ (List.mem_singleton_self _)))
  | incRm8 | incRmv | decRm8 | decRmv | negRm8 | negRmv | notRm8 | notRmv =>
    exact runUnit_writes (unaryBody_stages (homeIn_rmHome _ _ _))
  | rolRm8Imm8 | rolRmvImm8 | rolRm8One | rolRmvOne | rolRm8Cl | rolRmvCl | rorRm8Imm8 | rorRmvImm8 | rorRm8One
  | rorRmvOne | rorRm8Cl | rorRmvCl | rclRm8Imm8 | rclRmvImm8 | rclRm8One | rclRmvOne | rclRm8Cl | rclRmvCl
  | rcrRm8Imm8 | rcrRmvImm8 | rcrRm8One | rcrRmvOne | rcrRm8Cl | rcrRmvCl | shlRm8Imm8 | shlRmvImm8 | shlRm8One
  | shlRmvOne | shlRm8Cl | shlRmvCl | shrRm8Imm8 | shrRmvImm8 | shrRm8One | shrRmvOne | shrRm8Cl | shrRmvCl
  | sarRm8Imm8 | sarRmvImm8 | sarRm8One | sarRmvOne | sarRm8Cl | sarRmvCl =>
    exact runUnit_writes (shiftBody_stages (homeIn_rmHome _ _ _))
  | mulRm8 | imulRm8 =>
    exact runUnit_writes (readThen_stages fun _ => .setDouble (.refl _ _) List.mem_cons_self (.inl rfl) _)
  | mulRmv | imulRmv =>
    exact runUnit_writes (readThen_stages fun _ => .setDouble (.refl _ _) List.mem_cons_self
      (.inr (List.mem_cons_of_mem _ List.mem_cons_self)) _)
  | imulRvRmv _ reg | imulRvRmvImmz _ reg | imulRvRmvImm8 _ reg | movzxRvRm8 _ reg | movzxRvRm16 _ reg
  | movsxRvRm8 _ reg | movsxRvRm16 _ reg =>
    exact runUnit_writes (readThen_stages fun _ =>
      .setView (.refl _ _) (homeIn_opSize _ (List.mem_singleton_self reg)) _)
  | divRm8 => exact runUnit_writes (divBody_stages List.mem_cons_self (.inl rfl))
  | divRmv =>
    exact runUnit_writes (divBody_stages List.mem_cons_self (.inr (List.mem_cons_of_mem _ List.mem_cons_self)))
  | idivRm8 => exact runUnit_writes (idivBody_stages List.mem_cons_self (.inl rfl))
  | idivRmv =>
    exact runUnit_writes (idivBody_stages List.mem_cons_self (.inr (List.mem_cons_of_mem _ List.mem_cons_self)))
  | cbwCwde => exact runUnit_writes (cbwBody_stages _)
  | cwdCdq => exact runUnit_writes (cwdBody_stages _)
  | movRm8R8 | movRmvRv | movRm8Imm8 | movRmvImmz | setccRm8 =>
    exact runUnit_writes (moveBody_stages (homeIn_rmHome _ _ _))
  | movMoffs8Al | movMoffsvEax => exact runUnit_writes (moveBody_stages trivial)
  | movR8Rm8 | movR8Imm8 => exact runUnit_writes (moveBody_stages (homeIn_byte _))
  | movAlMoffs8 => exact runUnit_writes (moveBody_stages (homeIn_byte .eax))
  | movRvRmv | movRvImmz | movEaxMoffsv =>
    exact runUnit_writes (moveBody_stages (homeIn_opSize _ (List.mem_singleton_self _)))
  | leaRvM _ reg =>
    exact runUnit_writes (.ok (.setView (.refl _ _) (homeIn_opSize _ (List.mem_singleton_self reg)) _))
  | xchgRm8R8 p reg rm =>
    exact runUnit_writes (xchgBody_stages (homeIn_rm p .s8 rm (List.subset_cons_self _ _))
      (by simp [HomeIn, written, regHome_eq]))
  | xchgRmvRv p reg rm =>
    exact runUnit_writes (xchgBody_stages (homeIn_rm p _ rm (List.subset_cons_self _ _))
      (homeIn_opSize _ List.mem_cons_self))
  | xchgEaxEcx | xchgEaxEdx | xchgEaxEbx | xchgEaxEsp | xchgEaxEbp | xchgEaxEsi | xchgEaxEdi =>
    exact runUnit_writes (xchgBody_stages (homeIn_opSize _ List.mem_cons_self)
      (homeIn_opSize _ (List.mem_cons_of_mem _ List.mem_cons_self)))
  | pushRv | pushImmz | pushImm8 | pushRmv => exact runUnit_writes pushBody_stages
  | popRv => exact runUnit_writes (popBody_stages List.mem_cons_self
      (homeIn_opSize _ (List.mem_cons_of_mem _ List.mem_cons_self)))
  | jccRel8 | jccRelz => exact runUnit_writes jccBody_stages
  | jmpRel8 | jmpRelz => exact runUnit_writes jmpBody_stages
  | jmpRmv => exact runUnit_writes jmpRefBody_stages
  | callRelz => exact runUnit_writes callBody_stages
  | callRmv => exact runUnit_writes callRefBody_stages
  | ret | retImm16 => exact runUnit_writes retBody_stages
  | hlt => exact runUnit_writes hltBody_stages
  | nop | clc | stc | cmc => exact runUnit_writes (.ok (.refl _ _))
  | ud2 =>
    intro t ht
    obtain rfl := Host.Outcome.next.inj ht
    exact .refl _ _

/-- Settles O28: the registers a unit leaves are those its body staged. -/
theorem otherRegistersUnchanged : Obligations.OtherRegistersUnchanged :=
  fun i s t r ht hr => exec_writes i s t ht r hr

end Sys2Proof.Machine
end

section
/-! PROOFS. Shift, second part: the rows of SHL and SHR (43_shift_rotate.md R250, R255, R256). Their CF is the last bit
shifted out while the count is within the width, and the draw ShiftUndef beyond it, which `shiftCarry` says. Settles
O43. -/

namespace Sys2Proof.Machine

open Sys2Proof.Claims

/-- A row whose operation writes: dst holds its value, and the flags and the draw counter are its. -/
theorem exec_shiftInstr_some {p : Prefixes} {n : ShiftName} {f : ShiftForm} {s : State}
    (hd : s.readable (f.size p) (f.dst p) = true) (hw : s.writable (f.size p) (f.dst p) = true)
    {o : Shifted (f.size p).bits}
    (hop : shiftOpOf n s.params (f.size p).bits s.flags s.draws (s.operand (f.size p) (f.dst p)) (f.count s) =
      some o) :
    exec (shiftInstr p n f) s = .next (s.advance (shiftInstr p n f)
      { s.withOperand (f.size p) (f.dst p) o.value with flags := o.flags, draws := o.draws }) := by
  rw [exec_shiftInstr, shiftBody_some _ hd hw hop]

theorem shiftCarry_of_le {n m : Nat} (h : m ≤ n) (d : Nat) (out : Bool) : shiftCarry n m d out = out := if_pos h

theorem ofNat_shiftLeft {n : Nat} (a : BitVec n) (m : Nat) : BitVec.ofNat n (a.toNat <<< m) = a <<< m := by
  apply BitVec.eq_of_toNat_eq
  rw [BitVec.toNat_ofNat, BitVec.toNat_shiftLeft]

theorem ofNat_shiftRight {n : Nat} (a : BitVec n) (m : Nat) : BitVec.ofNat n (a.toNat >>> m) = a >>> m := by
  apply BitVec.eq_of_toNat_eq
  rw [BitVec.toNat_ofNat, BitVec.toNat_ushiftRight, Nat.mod_eq_of_lt ((Nat.shiftRight_le _ _).trans_lt a.isLt)]

/-- The bit that a shift to the left by m ≤ n leaves at place n. -/
theorem testBit_shiftLeft_of_le {n m : Nat} (a : BitVec n) (h : m ≤ n) :
    (a.toNat <<< m).testBit n = a.getLsbD (n - m) := by
  rw [Nat.testBit_shiftLeft, decide_eq_true h, Bool.true_and, BitVec.testBit_toNat]

theorem shl_eq (q : Params) {n : Nat} (f : Flags) (d : Nat) (a : BitVec n) {c : Nat} (hm : c % 32 ≠ 0) :
    shl q n f d a c =
      let cf := shiftCarry n (c % 32) d ((a.toNat <<< (c % 32)).testBit n)
      some ⟨a <<< (c % 32), shiftFlags (a <<< (c % 32)) cf
        (if c % 32 = 1 then (a <<< (c % 32)).msb ^^ cf else f.of) f, shiftDraws n (c % 32) d⟩ := by
  refine (if_neg hm).trans ?_
  simp only [ofNat_shiftLeft, szp_eq]
  rfl

theorem shr_eq (q : Params) {n : Nat} (f : Flags) (d : Nat) (a : BitVec n) {c : Nat} (hm : c % 32 ≠ 0) :
    shr q n f d a c =
      some ⟨a >>> (c % 32), shiftFlags (a >>> (c % 32)) (shiftCarry n (c % 32) d (a.getLsbD (c % 32 - 1)))
        (if c % 32 = 1 then a.msb else f.of) f, shiftDraws n (c % 32) d⟩ := by
  refine (if_neg hm).trans ?_
  simp only [ofNat_shiftRight, szp_eq]
  rfl

/-- Settles O43: the witness for CF is `shiftCarry`, the bit shifted out or the draw. -/
theorem shlAndShrResult : Obligations.ShlAndShrResult := by
  intro p f s hd
  refine ⟨fun hm => ⟨?_, ?_⟩, fun hm hw => ?_⟩
  · exact exec_shiftInstr_unchanged (n := .shl) hd ((shl_eq_none s.params _ _ _ _ _).mpr hm)
  · exact exec_shiftInstr_unchanged (n := .shr) hd ((shr_eq_none s.params _ _ _ _ _).mpr hm)
  · have hshl := exec_shiftInstr_some (n := .shl) hd hw (shl_eq s.params _ _ _ hm)
    have hshr := exec_shiftInstr_some (n := .shr) hd hw (shr_eq s.params _ _ _ hm)
    exact ⟨⟨_, fun hle => (shiftCarry_of_le hle _ _).trans (testBit_shiftLeft_of_le _ hle), hshl⟩,
      ⟨_, fun hle => shiftCarry_of_le hle _ _, hshr⟩⟩

end Sys2Proof.Machine
end

section
/-! PROOFS. MulDiv, second part: MUL and IMUL (44_muldiv.md R280 to R284). Each body reads one operand and stages
registers, flags and draws, which `exec_of_staged` takes to the state the row leaves; the product's halves and its
overflow are said once as the rules write them. Settles O45, O46. -/

namespace Sys2Proof.Machine

open Sys2Proof.Claims

/-! ### The product (R281 to R284) -/

theorem bits_pos (z : Size) : 0 < z.bits := by cases z <;> decide

/-- Twice eight bits, high half over low. -/
theorem ofInt_append8 (x : Int) : BitVec.ofInt 8 (x / 2 ^ 8) ++ BitVec.ofInt 8 x = BitVec.ofInt 16 x := by
  apply BitVec.eq_of_toNat_eq
  rw [toNat_append_eq]
  simp only [BitVec.toNat_ofInt]
  omega

theorem setDouble_eq_productGpr (g : Gprs) (z : Size) (x : Int) :
    g.setDouble z x = productGpr g z (BitVec.ofInt z.bits (x / 2 ^ z.bits)) (BitVec.ofInt z.bits x) := by
  cases z with
  | s8 => exact congrArg (g.setView .s16 .eax) (ofInt_append8 x).symm
  | s16 | s32 => rfl

theorem setDouble_natCast (g : Gprs) (z : Size) (x : Nat) : g.setDouble z x =
    productGpr g z (BitVec.ofNat z.bits (x / 2 ^ z.bits)) (BitVec.ofNat z.bits x) := by
  rw [setDouble_eq_productGpr, ← BitVec.ofInt_natCast, ← BitVec.ofInt_natCast]
  norm_cast

/-- The high half is not zero. -/
theorem div_two_pow_bne_zero (x n : Nat) : (x / 2 ^ n != 0) = decide (2 ^ n ≤ x) := by
  rw [Bool.eq_iff_iff, bne_iff_ne, decide_eq_true_iff, Nat.div_ne_zero_iff]
  exact and_iff_right (Nat.two_pow_pos n).ne'

/-- A value fits in n signed bits when it is in their range. -/
theorem toInt_ofInt_eq_iff {n : Nat} (hn : 0 < n) (x : Int) :
    x = (BitVec.ofInt n x).toInt ↔ -2 ^ (n - 1) ≤ x ∧ x < 2 ^ (n - 1) := by
  constructor
  · intro h
    rw [h]
    exact ⟨BitVec.le_toInt _, BitVec.toInt_lt⟩
  · rintro ⟨hlow, hhigh⟩
    exact (BitVec.toInt_ofInt_eq_self hn hlow hhigh).symm

theorem mulOverflows_eq {n : Nat} (hn : 0 < n) (x : Int) :
    mulOverflows n x = decide (x < -2 ^ (n - 1) ∨ 2 ^ (n - 1) ≤ x) := by
  rw [mulOverflows, Bool.eq_iff_iff, bne_iff_ne, decide_eq_true_iff, Ne, toInt_ofInt_eq_iff hn, not_and_or, not_le,
    not_lt]

/-! ### Rows by shape (R281 to R284) -/

/-- A row whose body stages registers, flags and draws leaves them and goes past the instruction. -/
theorem exec_of_staged {i : Instr} {s : State} {body : Except Stop Effect} {g : Gprs} {f : Flags} {d : Nat}
    (hexec : exec i s = runUnit i.len body s)
    (hbody : body = .ok { Effect.start s with gpr := g, flags := f, draws := d }) :
    exec i s = .next (s.advance i { s with gpr := g, flags := f, draws := d }) := by
  rw [hexec, hbody]
  exact runUnit_regs i s g f d

theorem mulBody_eq {z : Size} {src : Ref} {s : State} (hr : s.readable z src = true) :
    let x := (s.gpr.view z .eax).toNat * (s.operand z src).toNat
    mulBody z src s = .ok { Effect.start s with
      gpr := productGpr s.gpr z (BitVec.ofNat z.bits (x / 2 ^ z.bits)) (BitVec.ofNat z.bits x)
      flags := mulFlags (decide (2 ^ z.bits ≤ x)) s.draws
      draws := s.draws + 4 } := by
  simp only [mulBody, State.readRef_of_readable hr, bind, Except.bind, setDouble_natCast, div_two_pow_bne_zero]

theorem imulBody_eq {z : Size} {src : Ref} {s : State} (hr : s.readable z src = true) :
    let x := (s.gpr.view z .eax).toInt * (s.operand z src).toInt
    imulBody z src s = .ok { Effect.start s with
      gpr := productGpr s.gpr z (BitVec.ofInt z.bits (x / 2 ^ z.bits)) (BitVec.ofInt z.bits x)
      flags := mulFlags (decide (x < -2 ^ (z.bits - 1) ∨ 2 ^ (z.bits - 1) ≤ x)) s.draws
      draws := s.draws + 4 } := by
  simp only [imulBody, State.readRef_of_readable hr, bind, Except.bind, setDouble_eq_productGpr,
    mulOverflows_eq (bits_pos z)]

theorem imul2Body_eq {z : Size} {dst : Reg} {src : Ref} {s : State} (hr : s.readable z src = true) :
    let x := (s.gpr.view z dst).toInt * (s.operand z src).toInt
    imul2Body z dst src s = .ok { Effect.start s with
      gpr := s.gpr.setView z dst (BitVec.ofInt z.bits x)
      flags := mulFlags (decide (x < -2 ^ (z.bits - 1) ∨ 2 ^ (z.bits - 1) ≤ x)) s.draws
      draws := s.draws + 4 } := by
  simp only [imul2Body, State.readRef_of_readable hr, bind, Except.bind, mulOverflows_eq (bits_pos z)]

theorem imul3Body_eq {z : Size} {dst : Reg} {src : Ref} {imm : BitVec z.bits} {s : State}
    (hr : s.readable z src = true) :
    let x := (s.operand z src).toInt * imm.toInt
    let r := BitVec.ofInt z.bits x
    let ov := decide (x < -2 ^ (z.bits - 1) ∨ 2 ^ (z.bits - 1) ≤ x)
    imul3Body z dst src imm s = .ok { Effect.start s with
      gpr := s.gpr.setView z dst r
      flags := ⟨ov, evenLow r, Config.freeBit s.draws, decide (r = 0), r.getLsbD (z.bits - 1), ov⟩
      draws := s.draws + 1 } := by
  simp only [imul3Body, State.readRef_of_readable hr, bind, Except.bind, mulOverflows_eq (bits_pos z),
    logicFlags_eq_logicalFlags, logicalFlags]

theorem exec_mulInstr (p : Prefixes) (f : F6Form) (s : State) :
    exec (f6Instr p .mul f) s = runUnit (f6Instr p .mul f).len (mulBody (f.size p) (f.ref p) s) s := by
  cases f <;> rfl

theorem exec_imulInstr (p : Prefixes) (f : F6Form) (s : State) :
    exec (f6Instr p .imul f) s = runUnit (f6Instr p .imul f).len (imulBody (f.size p) (f.ref p) s) s := by
  cases f <;> rfl

/-- Settles O45: the four flags that are draws are the witnesses. -/
theorem multiplyResult : Obligations.MultiplyResult := by
  intro p f s hr
  exact ⟨⟨_, _, _, _, exec_of_staged (exec_mulInstr p f s) (mulBody_eq hr)⟩,
    ⟨_, _, _, _, exec_of_staged (exec_imulInstr p f s) (imulBody_eq hr)⟩⟩

theorem exec_imulImmz (p : Prefixes) (reg : Reg) (rm : Rm) (v : Immz) (s : State) :
    exec (.imulRvRmvImmz p reg rm v) s = runUnit (Instr.imulRvRmvImmz p reg rm v).len
      (imul3Body p.opSize.size reg (rmRef p rm) (immValue p.opSize.size v) s) s := by
  rw [← immz_eq_immValue]
  rfl

/-- Settles O46: the flags that are draws are the witnesses. -/
theorem imulTwoAndThreeOperandsResult : Obligations.ImulTwoAndThreeOperandsResult := by
  intro p reg rm s hr
  exact ⟨⟨_, _, _, _, exec_of_staged (i := .imulRvRmv p reg rm) rfl (imul2Body_eq hr)⟩,
    fun v => ⟨_, exec_of_staged (exec_imulImmz p reg rm v s) (imul3Body_eq hr)⟩,
    fun v => ⟨_, exec_of_staged (i := .imulRvRmvImm8 p reg rm v) rfl (imul3Body_eq hr)⟩⟩

end Sys2Proof.Machine
end
